-- ==== Sys2Proof/Word.lean ====
section
/-! DEFINITION. Word.lean: the two widths the block moves, 8 and 16 bits (spec 00_scope.md R9, R12). -/

namespace Sys2Proof

/-- A byte: 8 bits (R9). -/
abbrev Byte := BitVec 8

/-- A host register or command word: 16 bits (R7). -/
abbrev Word := BitVec 16

end Sys2Proof
end

