-- ==== Sys2Proof/Syntax.lean ====
section
/-! DEFINITION. Syntax.lean: the block's instructions (one constructor per row of spec/opcode_table.json), the
wire frame as syntax, the register names, a host's accesses, and the events of the three agents. Types only: the codes
and encodings of these names stand in Decode.lean. -/

namespace Sys2Proof

/-- The closed set of function codes (30_encoding.md R82). -/
inductive FnCode where
  | read | write | control | request
  deriving DecidableEq, Repr, Inhabited

/-- The data addresses of a READ or WRITE frame (30_encoding.md R84). -/
inductive DataAddr where
  | idL | idH | position | defaultDir | handStart | mode | extSwitch | extHvSwitch
  deriving DecidableEq, Repr

/-- The control addresses of a CONTROL frame (30_encoding.md R83). -/
inductive ControlAddr where
  | openCmd | closeCmd | stop | percent | deleteLimit | default | setContext | runContext | delContext
  deriving DecidableEq, Repr

/-- The instructions. The first twelve are command words written to `CMD` (30_encoding.md R90, R91, R101); the
last four are the wire function codes, which an XACT finds in byte 3 of the request in `TxBuf` (R82, R160). -/
inductive Instr where
  /-- CRC.INIT, word 0x0001 (41_crc.md R111). -/
  | crcInit
  /-- CRC.BYTE, `b = w[15:8]` (R93, 41_crc.md R112). -/
  | crcByte (b : Byte)
  /-- ENC.READ, `p = w[8]`: is the count taken from `ENC_DATA`? (R92, 42_encode.md R120). -/
  | encRead (p : Bool)
  /-- ENC.WRITE, `p = w[8]`: is there a payload byte? (R92, 42_encode.md R121). -/
  | encWrite (p : Bool)
  /-- ENC.CONTROL, `p = w[8]` (R92, 42_encode.md R122). -/
  | encControl (p : Bool)
  /-- ENC.REQUEST, `p = w[8]` (R92, 42_encode.md R123). -/
  | encRequest (p : Bool)
  /-- VALIDATE, word 0x0004 (43_decode.md R142). -/
  | validate
  /-- XACT, word 0x0005 (44_transaction.md R165). -/
  | xact
  /-- FLUSH, word 0x0006 (44_transaction.md R180). -/
  | flush
  /-- CLEAR, word 0x0007 (45_status.md R190). -/
  | clear
  /-- RESERVED.OP0: opcode 0, with any other bits `hi = w[15:4]` (30_encoding.md R101). -/
  | reservedOp0 (hi : BitVec 12)
  /-- RESERVED.OP8-F: opcode 8 to 15, with any other bits `hi = w[15:4]` (30_encoding.md R101). -/
  | reservedOp8F (op : BitVec 4) (hi : BitVec 12)
  /-- FRAME.READ: the transaction of a READ request (R82, R160). -/
  | frameRead
  /-- FRAME.WRITE: the transaction of a WRITE request (R82, R160). -/
  | frameWrite
  /-- FRAME.CONTROL: the transaction of a CONTROL request (R82, R160). -/
  | frameControl
  /-- FRAME.REQUEST: the transaction of a REQUEST frame, which is unsupported (R82, R160). -/
  | frameRequest
  deriving DecidableEq, Repr

/-- The word an instruction is written as: a 16-bit command word (R90), or the 8-bit function code of a wire
frame (R82). -/
inductive InstrWord where
  | command (w : Word)
  | wire (b : Byte)
  deriving DecidableEq, Repr

/-- A wire frame without its derived parts, the start marker and the CRC trailer (30_encoding.md R80). A received
frame may carry any function byte (R82), so `fn` is a byte. -/
structure Frame where
  addr : Word
  fn : Byte
  sub : Byte
  payload : List Byte
  deriving DecidableEq, Repr

/-- The named register slots (10_state.md R21); slots 0x14 to 0x1F have no name (R56). -/
inductive Reg where
  | cmd | status | cmdErr | crc | encAddr | encSub | encData | txLen | rxLen | rxExp
  | rxAddr | rxFn | rxSub | rxDlen | dataIdx | dataAt | rxCrcCalc | rxCrcRecv | fifoCount | txIdx
  deriving DecidableEq, Repr

/-- One host access (20_memory.md R61, R62): a whole register by 5-bit index, or one buffer byte by index. -/
inductive Access where
  | readReg (i : BitVec 5)
  | writeReg (i : BitVec 5) (v : Word)
  | readTx (i : Nat)
  | writeTx (i : Nat) (v : Byte)
  | readRx (i : Nat)
  | writeRx (i : Nat) (v : Byte)
  deriving DecidableEq, Repr

/-- One event: the step of one agent, or a reset (00_scope.md R6). -/
inductive Event where
  /-- Host `h` makes one access (R6, R61, R62). -/
  | host (h : Nat) (a : Access)
  /-- The engine takes its step (44_transaction.md R171 to R173). -/
  | engine
  /-- The line delivers byte `b` (R175). -/
  | deliver (b : Byte)
  /-- The line raises a read timeout (R177). -/
  | timeout
  /-- The link goes down (R176). -/
  | linkDown
  /-- The link comes up (R176). -/
  | linkUp
  /-- Reset, from outside the block (70_reset_and_hazards.md R230). -/
  | reset
  deriving DecidableEq, Repr, Inhabited

end Sys2Proof
end

