-- ==== Sys2Proof/Config.lean ====
section
/-! DEFINITION. Config.lean: what one machine fixes (the open parameters of 00_scope.md R8) and the free values of
93_implementation_defined.md. Every constant that the spec leaves open is opaque: no proof can see its value. -/

namespace Sys2Proof

/-- Free: the receive FIFO depth less one (log 2). -/
opaque Config.rxFifoDepthLessOne : Fin 65535

/-- `RX_FIFO_DEPTH`, an open parameter with 1 ≤ depth ≤ 65535 (00_scope.md R8, U3; log 2). -/
def Config.rxFifoDepth : Nat := Config.rxFifoDepthLessOne.val + 1

/-- Free: the number of host agents less one (log 2). -/
opaque Config.nHostsLessOne : Nat

/-- `N_HOSTS`, an open parameter with `N_HOSTS` ≥ 1 (00_scope.md R8, U4; log 2). -/
def Config.nHosts : Nat := Config.nHostsLessOne + 1

/-- Free: byte `i` of the contents drawn by draw `n`, for the buffers at a reset (10_state.md R40, R41, U1; log 3). -/
opaque Config.freeByte : Nat → Nat → Byte

/-- Free: the event that draw `n` gives, where the agenda names none (00_scope.md R6, 44_transaction.md R178; log 1). -/
opaque Config.freeEvent : Nat → Event

/-- Free: the `link_open` input at power-on (10_state.md R43: reset does not set it; log 4). -/
opaque Config.linkAtPowerOn : Bool

/-- The fixed parameters of 00_scope.md R7. -/
def Config.start : Byte := 0x55
/-- Bytes before the payload (R7). -/
def Config.headerLen : Nat := 5
/-- Bytes of the trailer (R7). -/
def Config.crcLen : Nat := 2
/-- `MIN_LEN` = `FRAME_OVERHEAD`: the shortest frame (R7, 90_conflicts.md C1). -/
def Config.minLen : Nat := Config.headerLen + Config.crcLen
/-- `MAX_REQ_LEN` = `TXBUF_SIZE` (R7). -/
abbrev Config.txBufSize : Nat := 8
/-- `MAX_REPLY_LEN` = `RXBUF_SIZE` (R7). -/
abbrev Config.rxBufSize : Nat := 262

end Sys2Proof
end

