-- ==== Sys2Proof/Machine/Bits.lean ====
section
/-! DEFINITION. Machine/Bits.lean: byte order (00_scope.md R11, 20_memory.md R63) and the CRC16/Modbus function
(41_crc.md R110). -/

namespace Sys2Proof

/-- Bits `[7:0]` of a 16-bit value. -/
def loByte (w : Word) : Byte := w.extractLsb' 0 8

/-- Bits `[15:8]` of a 16-bit value. -/
def hiByte (w : Word) : Byte := w.extractLsb' 8 8

/-- The 16-bit value of two bytes, the lower-addressed one holding bits `[7:0]` (R11). -/
def le16 (lo hi : Byte) : Word := lo.setWidth 16 ||| (hi.setWidth 16 <<< 8)

/-- One iteration of the CRC: shift right, and XOR with 0xA001 if the low bit was set (R110). -/
def crcShift (c : Word) : Word := if c.getLsbD 0 then (c >>> 1) ^^^ 0xA001#16 else c >>> 1

/-- `n` iterations of the CRC's shift. -/
def crcShifts : Nat → Word → Word
  | 0, c => c
  | n + 1, c => crcShifts n (crcShift c)

/-- `crc_update` (R110): XOR the byte into the low byte, then eight iterations. -/
def crcUpdate (c : Word) (b : Byte) : Word := crcShifts 8 (c ^^^ b.setWidth 16)

/-- Fold a sequence of bytes into a CRC register, lowest offset first. -/
def crcFold (c : Word) (bs : List Byte) : Word := bs.foldl crcUpdate c

/-- `CRC16` (R110): the fold from 0xFFFF. -/
def crc16 (bs : List Byte) : Word := crcFold 0xFFFF#16 bs

end Sys2Proof
end

