-- ==== Sys2Proof/WellFormed.lean ====
section
/-! DEFINITION. WellFormed.lean: which terms of the syntax stand for something the spec has. -/

namespace Sys2Proof

/-- An instruction is well formed when its fields are ones its row of the opcode table admits: the only field with a
limit is the opcode of RESERVED.OP8-F, which is 8 to 15 (30_encoding.md R91, R101). -/
def Instr.wf : Instr → Bool
  | .reservedOp8F op _ => 8 ≤ op.toNat
  | .crcInit | .crcByte _ | .encRead _ | .encWrite _ | .encControl _ | .encRequest _ | .validate | .xact | .flush
  | .clear | .reservedOp0 _ | .frameRead | .frameWrite | .frameControl | .frameRequest => true

/-- A frame is well formed when its length lies in 7 to 262, that is, it has at most 255 payload bytes
(30_encoding.md R81, R103). -/
def Frame.wf (f : Frame) : Bool := f.payload.length ≤ 255

/-- An event is well formed when the agent it names exists: host `h` with `h < N_HOSTS` (00_scope.md R6). -/
def Event.wf : Event → Bool
  | .host h _ => h < Config.nHosts
  | .engine | .deliver _ | .timeout | .linkDown | .linkUp | .reset => true

end Sys2Proof
end

