-- ==== Sys2Proof/Decode.lean ====
section
/-! DEFINITION. Decode.lean: the command-word decoder and the wire function codes, then the encoders
(30_encoding.md R80 to R102; 10_state.md R21 for the register indexes). Both decoders are total and reject by name. -/

namespace Sys2Proof

/-! ## Codes of the closed sets -/

/-- The function codes (R82). -/
def FnCode.code : FnCode → Byte
  | .read => 0x01
  | .write => 0x02
  | .control => 0x03
  | .request => 0x04

/-- The function code a byte stands for; every other byte value is not a function code (R82). -/
def FnCode.ofCode (b : Byte) : Option FnCode :=
  if b = 0x01#8 then some .read
  else if b = 0x02#8 then some .write
  else if b = 0x03#8 then some .control
  else if b = 0x04#8 then some .request
  else none

/-- The data addresses' codes (R84). -/
def DataAddr.code : DataAddr → Byte
  | .idL => 0x00
  | .idH => 0x01
  | .position => 0x02
  | .defaultDir => 0x03
  | .handStart => 0x04
  | .mode => 0x05
  | .extSwitch => 0x27
  | .extHvSwitch => 0x28

/-- Every data address (R84). -/
def DataAddr.all : List DataAddr :=
  [.idL, .idH, .position, .defaultDir, .handStart, .mode, .extSwitch, .extHvSwitch]

/-- The control addresses' codes (R83). -/
def ControlAddr.code : ControlAddr → Byte
  | .openCmd => 0x01
  | .closeCmd => 0x02
  | .stop => 0x03
  | .percent => 0x04
  | .deleteLimit => 0x07
  | .default => 0x08
  | .setContext => 0x09
  | .runContext => 0x0A
  | .delContext => 0x0B

/-- Every control address (R83). -/
def ControlAddr.all : List ControlAddr :=
  [.openCmd, .closeCmd, .stop, .percent, .deleteLimit, .default, .setContext, .runContext, .delContext]

/-- `AddrOK(fn, a)` (R85). -/
def addrOK (fn : FnCode) (a : Byte) : Bool :=
  match fn with
  | .read | .write => DataAddr.all.any fun d => d.code == a
  | .control => ControlAddr.all.any fun c => c.code == a
  | .request => true

/-- The register indexes (10_state.md R21). -/
def Reg.index : Reg → BitVec 5
  | .cmd => 0x00
  | .status => 0x01
  | .cmdErr => 0x02
  | .crc => 0x03
  | .encAddr => 0x04
  | .encSub => 0x05
  | .encData => 0x06
  | .txLen => 0x07
  | .rxLen => 0x08
  | .rxExp => 0x09
  | .rxAddr => 0x0A
  | .rxFn => 0x0B
  | .rxSub => 0x0C
  | .rxDlen => 0x0D
  | .dataIdx => 0x0E
  | .dataAt => 0x0F
  | .rxCrcCalc => 0x10
  | .rxCrcRecv => 0x11
  | .fifoCount => 0x12
  | .txIdx => 0x13

/-- Every named register (R21). -/
def Reg.all : List Reg :=
  [.cmd, .status, .cmdErr, .crc, .encAddr, .encSub, .encData, .txLen, .rxLen, .rxExp,
   .rxAddr, .rxFn, .rxSub, .rxDlen, .dataIdx, .dataAt, .rxCrcCalc, .rxCrcRecv, .fifoCount, .txIdx]

/-- The register at an index; `none` for the reserved slots (R56). -/
def Reg.ofIndex (i : BitVec 5) : Option Reg := Reg.all.find? fun r => r.index == i

/-! ## Command words -/

/-- Why a 16-bit word is no command of the table. Either is a refusal of the block, a next state (R100, R102). -/
inductive CommandReject where
  /-- A reserved bit of the command's format is 1 (R102). -/
  | reservedBits
  /-- An ENCODE word whose `fn` field is not 1 to 4 (R102). -/
  | badFunction
  deriving DecidableEq, Repr

/-- The opcode field `w[3:0]` (R90). -/
def opField (w : Word) : BitVec 4 := w.extractLsb' 0 4

/-- The bits `w[15:4]` above the opcode. -/
def highField (w : Word) : BitVec 12 := w.extractLsb' 4 12

/-- The `fn` field `w[7:4]` of format F2, reserved in F1 (R90, R92). -/
def fnField (w : Word) : BitVec 4 := w.extractLsb' 4 4

/-- The payload-present bit `P = w[8]` of format F2 (R92). -/
def pField (w : Word) : Bool := w.getLsbD 8

/-- The reserved bits `w[15:9]` of format F2 (R90). -/
def topField (w : Word) : BitVec 7 := w.extractLsb' 9 7

/-- The byte operand `b = w[15:8]` of format F1 (R93). -/
def byteField (w : Word) : Byte := w.extractLsb' 8 8

/-- The ENCODE command of a function code (R91). -/
def encodeInstr (fn : FnCode) (p : Bool) : Instr :=
  match fn with
  | .read => .encRead p
  | .write => .encWrite p
  | .control => .encControl p
  | .request => .encRequest p

/-- Decode a command word: the state-free checks of R100 in R100's order (reserved opcode, reserved bits, function).
The two checks of R100 that read the state, BUSY and BAD_ADDRESS, stand in the meanings. -/
def decodeCommand (w : Word) : Except CommandReject Instr :=
  if opField w = 0 then .ok (.reservedOp0 (highField w))
  else if 8 ≤ (opField w).toNat then .ok (.reservedOp8F (opField w) (highField w))
  else if opField w = 2 then
    if fnField w ≠ 0 then .error .reservedBits else .ok (.crcByte (byteField w))
  else if opField w = 3 then
    if topField w ≠ 0 then .error .reservedBits
    else match FnCode.ofCode ((fnField w).setWidth 8) with
      | some fn => .ok (encodeInstr fn (pField w))
      | none => .error .badFunction
  else if highField w ≠ 0 then .error .reservedBits
  else if opField w = 1 then .ok .crcInit
  else if opField w = 4 then .ok .validate
  else if opField w = 5 then .ok .xact
  else if opField w = 6 then .ok .flush
  else .ok .clear

/-! ## Wire function codes -/

/-- Why a byte is no wire function code (R82). -/
inductive WireReject where
  /-- 0x00 or 0x05 to 0xFF (R82). -/
  | notAFunctionCode
  deriving DecidableEq, Repr

/-- The FRAME row of a function code (R82). -/
def frameInstr : FnCode → Instr
  | .read => .frameRead
  | .write => .frameWrite
  | .control => .frameControl
  | .request => .frameRequest

/-- Decode byte 3 of a wire frame (R82). -/
def decodeWire (b : Byte) : Except WireReject Instr :=
  match FnCode.ofCode b with
  | some fn => .ok (frameInstr fn)
  | none => .error .notAFunctionCode

/-- Why a word is no instruction of the table. -/
inductive Reject where
  | command (r : CommandReject)
  | wire (r : WireReject)
  deriving DecidableEq, Repr

/-- Decode either kind of instruction word. -/
def decode : InstrWord → Except Reject Instr
  | .command w => (decodeCommand w).mapError .command
  | .wire b => (decodeWire b).mapError .wire

/-- The instruction the decoder reads from a word of the opcode table. The four wire rows are 8 bits wide; every other
word is a command word, whose bits above `nbits` are 0 (log 7). -/
def decodeTableWord (nbits w : Nat) : Option Instr :=
  match if nbits ≤ 8 then decodeWire (BitVec.ofNat 8 w) else .error .notAFunctionCode with
  | .ok i => some i
  | .error _ => (decodeCommand (BitVec.ofNat 16 w)).toOption

/-! ## Wire frames -/

/-- Why a byte sequence is no valid frame (43_decode.md R140, R142). -/
inductive FrameReject where
  /-- Under 7 bytes (R81, R142). -/
  | tooShort
  /-- Over 262 bytes (R142). -/
  | tooLong
  /-- Byte 0 is not the start marker (R140). -/
  | badStart
  /-- The trailer is not the CRC16 of the bytes before it (R140). -/
  | badCrc
  deriving DecidableEq, Repr

/-- Read a whole byte sequence as a frame: the fields at the offsets of R80, once length, start marker and trailer
are right (R140). Nothing else is checked (R140, D26). -/
def decodeFrame (bs : List Byte) : Except FrameReject Frame :=
  if bs.length < Config.minLen then .error .tooShort
  else if Config.rxBufSize < bs.length then .error .tooLong
  else if bs.getD 0 0 ≠ Config.start then .error .badStart
  else if le16 (bs.getD (bs.length - 2) 0) (bs.getD (bs.length - 1) 0) ≠ crc16 (bs.take (bs.length - 2)) then
    .error .badCrc
  else .ok
    { addr := le16 (bs.getD 1 0) (bs.getD 2 0), fn := bs.getD 3 0, sub := bs.getD 4 0,
      payload := (bs.take (bs.length - 2)).drop Config.headerLen }

/-! ## Encoders -/

/-- The bytes of a frame before its trailer: start marker, address (low byte first), function, sub-address, payload
(R80). -/
def Frame.body (f : Frame) : List Byte :=
  [Config.start, loByte f.addr, hiByte f.addr, f.fn, f.sub] ++ f.payload

/-- The frame as it goes on the wire: the body, then its CRC16, low byte first (R80, R110). -/
def encodeFrame (f : Frame) : List Byte :=
  f.body ++ [loByte (crc16 f.body), hiByte (crc16 f.body)]

/-- A format F2 word: `op = 3`, `fn`, `P` (R90). -/
def encodeF2 (fn : FnCode) (p : Bool) : Word :=
  0#7 ++ BitVec.ofBool p ++ (fn.code.extractLsb' 0 4) ++ 3#4

/-- The word of an instruction (R90, R91; R82 for the wire rows). -/
def encode : Instr → InstrWord
  | .crcInit => .command 0x0001
  | .crcByte b => .command (b ++ 0#4 ++ 2#4)
  | .encRead p => .command (encodeF2 .read p)
  | .encWrite p => .command (encodeF2 .write p)
  | .encControl p => .command (encodeF2 .control p)
  | .encRequest p => .command (encodeF2 .request p)
  | .validate => .command 0x0004
  | .xact => .command 0x0005
  | .flush => .command 0x0006
  | .clear => .command 0x0007
  | .reservedOp0 hi => .command (hi ++ 0#4)
  | .reservedOp8F op hi => .command (hi ++ op)
  | .frameRead => .wire FnCode.read.code
  | .frameWrite => .wire FnCode.write.code
  | .frameControl => .wire FnCode.control.code
  | .frameRequest => .wire FnCode.request.code

/-! ## The opcode table -/

/-- One row of spec/opcode_table.json for a command word: a word belongs to the row when `w &&& mask = bits`. -/
structure OpcodeRow where
  bits : Word
  mask : Word
  deriving DecidableEq, Repr

/-- The command-word rows of the opcode table (R91), in its order. -/
def opcodeRows : List OpcodeRow :=
  [⟨0x0001, 0xFFFF⟩, ⟨0x0002, 0x00FF⟩, ⟨0x0013, 0xFEFF⟩, ⟨0x0023, 0xFEFF⟩, ⟨0x0033, 0xFEFF⟩, ⟨0x0043, 0xFEFF⟩,
   ⟨0x0004, 0xFFFF⟩, ⟨0x0005, 0xFFFF⟩, ⟨0x0006, 0xFFFF⟩, ⟨0x0007, 0xFFFF⟩, ⟨0x0000, 0x000F⟩, ⟨0x0008, 0x0008⟩]

/-- The row of the opcode table an instruction belongs to; the wire rows are matched as bytes and have none here. -/
def Instr.row : Instr → Option OpcodeRow
  | .crcInit => some ⟨0x0001, 0xFFFF⟩
  | .crcByte _ => some ⟨0x0002, 0x00FF⟩
  | .encRead _ => some ⟨0x0013, 0xFEFF⟩
  | .encWrite _ => some ⟨0x0023, 0xFEFF⟩
  | .encControl _ => some ⟨0x0033, 0xFEFF⟩
  | .encRequest _ => some ⟨0x0043, 0xFEFF⟩
  | .validate => some ⟨0x0004, 0xFFFF⟩
  | .xact => some ⟨0x0005, 0xFFFF⟩
  | .flush => some ⟨0x0006, 0xFFFF⟩
  | .clear => some ⟨0x0007, 0xFFFF⟩
  | .reservedOp0 _ => some ⟨0x0000, 0x000F⟩
  | .reservedOp8F _ _ => some ⟨0x0008, 0x0008⟩
  | .frameRead | .frameWrite | .frameControl | .frameRequest => none

end Sys2Proof
end

