-- ==== Sys2Proof/Machine/State.lean ====
section
/-! DEFINITION. Machine/State.lean: the block's state, exactly the record of 10_state.md R57, with the three fields of
the model's own that stand for the block's surroundings; the reasons a step can stop; and the state after reset. -/

namespace Sys2Proof.Machine

/-- The engine phase (10_state.md R26); the encoding 3 is never held (U7). -/
inductive Phase where
  | idle | tx | rx
  deriving DecidableEq, Repr

/-- A transaction's result (60_exceptions.md R200); codes 8 to 15 are never held (U7). -/
inductive Result where
  | none | ok | notConnected | readTimeout | connectionClosed | invalidFrame | unsupportedFunction | badLength
  deriving DecidableEq, Repr

/-- A refusal code (60_exceptions.md R201); codes 6 to 15 are never held (U7). -/
inductive RefusalCode where
  | none | reservedOpcode | reservedBits | busy | badFunction | badAddress
  deriving DecidableEq, Repr

/-- Why the machine stops with a fault: never. The block has no traps (60_exceptions.md R205); its refusals and
transaction results are next states. Nobody raises a fault, so nothing here is safe or unsafe (log 10). -/
inductive Fault where
  deriving DecidableEq, Repr

/-- Why the machine has no meaning for an instruction. -/
inductive Refusal where
  /-- Raised by an arm of `exec` for an instruction without a meaning; no arm raises it in this model. Safe. -/
  | notModelled (mnemonic : String)
  deriving DecidableEq, Repr

/-- The state. The fields down to `wireOut` are the record of R57; the last three are the model's own. -/
structure State where
  /-- ENC_ADDR (R35). -/
  encAddr : Word
  /-- ENC_SUB (R36). -/
  encSub : Byte
  /-- ENC_DATA (R37). -/
  encData : Byte
  /-- DATA_IDX (R50). -/
  dataIdx : Byte
  /-- TX_LEN (R38). -/
  txLen : BitVec 4
  /-- RX_LEN (R39). -/
  rxLen : BitVec 9
  /-- RX_EXP (R45). -/
  rxExp : BitVec 9
  /-- TX_IDX (R55). -/
  txIdx : BitVec 4
  /-- CRC, the standalone accumulator (R34). -/
  crc : Word
  /-- RX_CRC_CALC (R52). -/
  rxCrcCalc : Word
  /-- RX_CRC_RECV (R53). -/
  rxCrcRecv : Word
  /-- CMDERR (R33). -/
  cmdErrCode : RefusalCode
  /-- STATUS.RESULT (R32). -/
  result : Result
  /-- STATUS.PHASE (R26). -/
  phase : Phase
  /-- STATUS.DONE (R27). -/
  done : Bool
  /-- STATUS.VALID (R28). -/
  valid : Bool
  /-- STATUS.CMD_ERR, sticky (R29). -/
  cmdErr : Bool
  /-- STATUS.RX_OVF, sticky (R30). -/
  rxOvf : Bool
  /-- TxBuf, 8 bytes (R40). -/
  txBuf : Vector Byte Config.txBufSize
  /-- RxBuf, 262 bytes (R41). -/
  rxBuf : Vector Byte Config.rxBufSize
  /-- The receive FIFO, oldest first (R42). -/
  fifo : List Byte
  /-- The `link_open` input (R43). -/
  linkOpen : Bool
  /-- The trace of bytes written to the line, oldest first (R44). -/
  wireOut : List Byte
  /-- The model's own: the events the agents have queued, next first (log 1). -/
  agenda : List Event
  /-- The model's own: how many draws of free values were made (log 3). -/
  draws : Nat
  /-- The model's own: what each host read returned, with the host that read, oldest first (log 6). -/
  hostReads : List (Nat × Word)
  deriving DecidableEq, Repr

/-- `n` bytes drawn by draw `d`, from position `base` on (U1; log 3). -/
def drawBuffer (d base n : Nat) : Vector Byte n :=
  ⟨((List.range n).map fun i => Config.freeByte d (base + i)).toArray, by simp⟩

/-- The state right after power-on, which is a reset (70_reset_and_hazards.md R230). The two buffers are free bytes
(U1). R230 leaves `link_open` and `wire_out` alone: at power-on the link is a free value (log 4) and the trace is empty
(log 5). The agenda, the draw count and the read trace are the model's own (log 1, log 3, log 6). -/
def State.reset : State where
  encAddr := 0
  encSub := 0
  encData := 0
  dataIdx := 0
  txLen := 0
  rxLen := 0
  rxExp := 0
  txIdx := 0
  crc := 0xFFFF
  rxCrcCalc := 0
  rxCrcRecv := 0
  cmdErrCode := .none
  result := .none
  phase := .idle
  done := false
  valid := false
  cmdErr := false
  rxOvf := false
  txBuf := drawBuffer 0 0 Config.txBufSize
  rxBuf := drawBuffer 0 Config.txBufSize Config.rxBufSize
  fifo := []
  linkOpen := Config.linkAtPowerOn
  wireOut := []
  agenda := []
  draws := 1
  hostReads := []

end Sys2Proof.Machine
end

