-- ==== Sys2Proof/Machine/Ops.lean ====
section
/-! DEFINITION. Machine/Ops.lean: the named operations over the buffers and registers, the block's two ways to report an
error (`refuse` and `finish`, which stand where another machine takes an exception: 60_exceptions.md R205), and reset. -/

namespace Sys2Proof.Machine

/-- What a meaning answers. -/
abbrev Answer := Host.Outcome State Fault Refusal

/-! ## Buffers -/

/-- Byte `i` of a buffer; an index outside it reads 0 (20_memory.md R61). -/
def readBuf {n : Nat} (v : Vector Byte n) (i : Nat) : Byte := v.toList.getD i 0

/-- Store byte `b` at index `i`; a store outside the buffer is ignored (20_memory.md R61). -/
def writeBuf {n : Nat} (v : Vector Byte n) (i : Nat) (b : Byte) : Vector Byte n := v.setIfInBounds i b

/-- Store a sequence of bytes from index `i` on, lowest offset first. -/
def storeBytes {n : Nat} (v : Vector Byte n) (i : Nat) : List Byte → Vector Byte n
  | [] => v
  | b :: bs => storeBytes (writeBuf v i b) (i + 1) bs

/-- `buf[0..L)` as a sequence (00_scope.md R9). -/
def prefixBytes {n : Nat} (v : Vector Byte n) (L : Nat) : List Byte := v.toList.take L

/-- `TxBuf[i]` (R40, R61). -/
def readTx (i : Nat) (s : State) : Byte := readBuf s.txBuf i

/-- `RxBuf[i]` (R41, R61). -/
def readRx (i : Nat) (s : State) : Byte := readBuf s.rxBuf i

/-! ## Busy and refusals -/

/-- `STATUS.BUSY`, computed: `PHASE ≠ IDLE` (10_state.md R25). -/
def State.busy (s : State) : Bool := s.phase != .idle

/-- `refuse(code)`: writes CMDERR and STATUS.CMD_ERR and nothing else (30_encoding.md R100, 00_scope.md R10). -/
def refuse (code : RefusalCode) (s : State) : State := { s with cmdErrCode := code, cmdErr := true }

/-- The effect `f` while idle, `refuse(BUSY)` while busy (30_encoding.md R100, 10_state.md R22, 20_memory.md R61). -/
def whenIdle (f : State → State) (s : State) : State := if s.busy then refuse .busy s else f s

/-! ## Transactions -/

/-- `finish(r)`: RESULT, DONE and PHASE, nothing else (44_transaction.md R170). -/
def finish (r : Result) (s : State) : State := { s with result := r, done := true, phase := .idle }

/-- What an accepted XACT clears first: DONE, RESULT and VALID (44_transaction.md R165). -/
def clearOutcome (s : State) : State := { s with done := false, result := .none, valid := false }

/-- The start of the transmit phase with expected reply length `e` (44_transaction.md R165). -/
def beginTx (e : BitVec 9) (s : State) : State := { s with rxExp := e, rxLen := 0, txIdx := 0, phase := .tx }

/-- What `Check(L)` returns (43_decode.md R140). -/
structure CheckResult where
  ok : Bool
  computed : Word
  received : Word
  deriving DecidableEq, Repr

/-- `Check(L)` (43_decode.md R140) over `RxBuf[0..L)`: the CRC of the bytes before the trailer, the trailer, and whether
the start marker is right and the two agree. -/
def check (L : Nat) (s : State) : CheckResult :=
  let computed := crc16 (prefixBytes s.rxBuf (L - 2))
  let received := le16 (readRx (L - 2) s) (readRx (L - 1) s)
  { ok := readRx 0 s == Config.start && received == computed, computed := computed, received := received }

/-- Latch a validation's outcome (43_decode.md R142, 44_transaction.md R172, 92_eei_decisions.md D35). -/
def latchCheck (c : CheckResult) (s : State) : State :=
  { s with valid := c.ok, rxCrcCalc := c.computed, rxCrcRecv := c.received }

/-- Run `Check(L)` and latch its outcome (43_decode.md R142, 44_transaction.md R172). -/
def validateFrame (L : Nat) (s : State) : State := latchCheck (check L s) s

/-- Put a request frame into `TxBuf` from offset 0 and its length into `TX_LEN`; a later byte of `TxBuf` is unchanged
(42_encode.md R124, 92_eei_decisions.md D38). -/
def loadRequest (bs : List Byte) (s : State) : State :=
  { s with txBuf := storeBytes s.txBuf 0 bs, txLen := BitVec.ofNat 4 bs.length }

/-! ## Reset -/

/-- `Reset()` (70_reset_and_hazards.md R230): every stored field at its reset value, the buffers drawn anew;
`link_open` and `wire_out` are not changed, nor are the agenda and the read trace (log 17). -/
def resetBlock (s : State) : State :=
  { State.reset with
    txBuf := drawBuffer s.draws 0 Config.txBufSize
    rxBuf := drawBuffer s.draws Config.txBufSize Config.rxBufSize
    linkOpen := s.linkOpen
    wireOut := s.wireOut
    agenda := s.agenda
    draws := s.draws + 1
    hostReads := s.hostReads }

end Sys2Proof.Machine
end

