-- ==== Sys2Proof/Machine/Flags.lean ====
section
/-! DEFINITION. Machine/Flags.lean: the numeric codes of phases, results and refusals, and the `STATUS` word packed from
the flags (10_state.md R24 to R32; 60_exceptions.md R200, R201). -/

namespace Sys2Proof.Machine

/-- `PHASE` encoded: IDLE 0, TX 1, RX 2 (R26). -/
def Phase.code : Phase → BitVec 2
  | .idle => 0
  | .tx => 1
  | .rx => 2

/-- Result codes (R200). -/
def Result.code : Result → BitVec 4
  | .none => 0
  | .ok => 1
  | .notConnected => 2
  | .readTimeout => 3
  | .connectionClosed => 4
  | .invalidFrame => 5
  | .unsupportedFunction => 6
  | .badLength => 7

/-- Refusal codes (R201, R33). -/
def RefusalCode.code : RefusalCode → BitVec 4
  | .none => 0
  | .reservedOpcode => 1
  | .reservedBits => 2
  | .busy => 3
  | .badFunction => 4
  | .badAddress => 5

/-- The `STATUS` word from its fields, most significant first: reserved [15:12], RESULT [11:8], LINK [7], RX_OVF [6],
CMD_ERR [5], VALID [4], DONE [3], PHASE [2:1], BUSY [0] (R24); BUSY is computed from the phase (R25). -/
def packStatus (result : Result) (link rxOvf cmdErr valid done : Bool) (phase : Phase) : Word :=
  0#4 ++ result.code ++ BitVec.ofBool link ++ BitVec.ofBool rxOvf ++ BitVec.ofBool cmdErr ++ BitVec.ofBool valid
    ++ BitVec.ofBool done ++ phase.code ++ BitVec.ofBool (phase != .idle)

/-- The `STATUS` word of a state; LINK is the live input (R24, R31). -/
def statusWord (s : State) : Word :=
  packStatus s.result s.linkOpen s.rxOvf s.cmdErr s.valid s.done s.phase

/-- What CLEAR clears: DONE, RESULT, CMD_ERR, CMDERR and RX_OVF (45_status.md R190). -/
def clearStatus (s : State) : State :=
  { s with done := false, result := .none, cmdErr := false, cmdErrCode := .none, rxOvf := false }

end Sys2Proof.Machine
end

