-- ==== Sys2Proof/Machine/Operands.lean ====
section
/-! DEFINITION. Machine/Operands.lean: the operand forms: what ENCODE takes from the registers (30_encoding.md R92), the
reply length XACT takes from the request (44_transaction.md R160), and the register file as the host reads and writes it
(10_state.md R21 to R56, 43_decode.md R150 to R154). -/

namespace Sys2Proof.Machine

/-! ## ENCODE operands -/

/-- The payload of a request: for READ the count, 1 unless `P` takes `ENC_DATA` (42_encode.md R120); otherwise
`ENC_DATA` if `P`, else nothing (R121 to R123). -/
def requestPayload (fn : FnCode) (p : Bool) (s : State) : List Byte :=
  match fn with
  | .read => [if p then s.encData else 0x01]
  | .write | .control | .request => if p then [s.encData] else []

/-- The request frame ENCODE assembles (42_encode.md R124). -/
def requestFrame (fn : FnCode) (p : Bool) (s : State) : Frame :=
  { addr := s.encAddr, fn := fn.code, sub := s.encSub, payload := requestPayload fn p s }

/-! ## The expected reply length -/

/-- The reply length of a request with function `fn` (44_transaction.md R160); `none` is UNSUPPORTED. -/
def replyLenOf (fn : FnCode) (s : State) : Option (BitVec 9) :=
  match fn with
  | .read => some (7 + (readTx 5 s).setWidth 9)
  | .write => some 8
  | .control => some (s.txLen.setWidth 9)
  | .request => none

/-- `ReplyLen()`, by the function code in `TxBuf[3]` (44_transaction.md R160). -/
def replyLen (s : State) : Option (BitVec 9) :=
  match FnCode.ofCode (readTx 3 s) with
  | some fn => replyLenOf fn s
  | none => none

/-! ## The register file -/

/-- What a read of a named register returns, zero-extended to 16 bits (10_state.md R22). -/
def readReg (r : Reg) (s : State) : Word :=
  match r with
  | .cmd => 0
  | .status => statusWord s
  | .cmdErr => s.cmdErrCode.code.setWidth 16
  | .crc => s.crc
  | .encAddr => s.encAddr
  | .encSub => s.encSub.setWidth 16
  | .encData => s.encData.setWidth 16
  | .txLen => s.txLen.setWidth 16
  | .rxLen => s.rxLen.setWidth 16
  | .rxExp => s.rxExp.setWidth 16
  | .rxAddr => le16 (readRx 1 s) (readRx 2 s)
  | .rxFn => (readRx 3 s).setWidth 16
  | .rxSub => (readRx 4 s).setWidth 16
  | .rxDlen => (readRx 5 s).setWidth 16
  | .dataIdx => s.dataIdx.setWidth 16
  | .dataAt => (readRx (Config.headerLen + s.dataIdx.toNat) s).setWidth 16
  | .rxCrcCalc => s.rxCrcCalc
  | .rxCrcRecv => s.rxCrcRecv
  | .fifoCount => BitVec.ofNat 16 s.fifo.length
  | .txIdx => s.txIdx.setWidth 16

/-- A read of slot `i`: a reserved slot reads 0 (R56). -/
def readSlot (i : BitVec 5) (s : State) : Word :=
  match Reg.ofIndex i with
  | some r => readReg r s
  | none => 0

/-- A write to a register other than `CMD` (10_state.md R22): the used bits are stored, `TX_LEN` and `RX_LEN` only while
idle; a read-only register or a view ignores it. -/
def writeReg (r : Reg) (v : Word) (s : State) : State :=
  match r with
  | .encAddr => { s with encAddr := v }
  | .encSub => { s with encSub := v.setWidth 8 }
  | .encData => { s with encData := v.setWidth 8 }
  | .dataIdx => { s with dataIdx := v.setWidth 8 }
  | .txLen => whenIdle (fun s => { s with txLen := v.setWidth 4 }) s
  | .rxLen => whenIdle (fun s => { s with rxLen := v.setWidth 9 }) s
  | .cmd | .status | .cmdErr | .crc | .rxExp | .rxAddr | .rxFn | .rxSub | .rxDlen | .dataAt | .rxCrcCalc | .rxCrcRecv
  | .fifoCount | .txIdx => s

end Sys2Proof.Machine
end

