-- ==== Sys2Proof/Machine/CrcCommands.lean ====
section
/-! DEFINITION. Machine/CrcCommands.lean: CRC.INIT and CRC.BYTE (41_crc.md R111, R112). -/

namespace Sys2Proof.Machine

/-- CRC.INIT (R111): the accumulator becomes 0xFFFF; accepted while busy. -/
def execCrcInit (s : State) : Answer := .next { s with crc := 0xFFFF }

/-- CRC.BYTE (R112): fold one byte into the accumulator; accepted while busy. -/
def execCrcByte (b : Byte) (s : State) : Answer := .next { s with crc := crcUpdate s.crc b }

end Sys2Proof.Machine
end

