-- ==== Sys2Proof/Machine/Encoder.lean ====
section
/-! DEFINITION. Machine/Encoder.lean: the four ENCODE commands (42_encode.md R120 to R124). -/

namespace Sys2Proof.Machine

/-- ENCODE: the BUSY check, then the BAD_ADDRESS check (30_encoding.md R100), then the frame into `TxBuf` (R124). -/
def encodeRequest (fn : FnCode) (p : Bool) (s : State) : State :=
  whenIdle (fun s =>
    if addrOK fn s.encSub then loadRequest (encodeFrame (requestFrame fn p s)) s else refuse .badAddress s) s

/-- ENC.READ (R120). -/
def execEncRead (p : Bool) (s : State) : Answer := .next (encodeRequest .read p s)

/-- ENC.WRITE (R121). -/
def execEncWrite (p : Bool) (s : State) : Answer := .next (encodeRequest .write p s)

/-- ENC.CONTROL (R122). -/
def execEncControl (p : Bool) (s : State) : Answer := .next (encodeRequest .control p s)

/-- ENC.REQUEST (R123). -/
def execEncRequest (p : Bool) (s : State) : Answer := .next (encodeRequest .request p s)

end Sys2Proof.Machine
end

