-- ==== Sys2Proof/Machine/Parser.lean ====
section
/-! DEFINITION. Machine/Parser.lean: VALIDATE (43_decode.md R142). -/

namespace Sys2Proof.Machine

/-- The validation of `RxBuf[0..RX_LEN)`: a length outside 7 to 262 clears VALID and leaves the diagnostic registers
(R142). -/
def validateRx (s : State) : State :=
  if s.rxLen.toNat < Config.minLen ∨ Config.rxBufSize < s.rxLen.toNat then { s with valid := false }
  else validateFrame s.rxLen.toNat s

/-- VALIDATE (R142): refused while busy. -/
def execValidate (s : State) : Answer := .next (whenIdle validateRx s)

end Sys2Proof.Machine
end

