-- ==== Sys2Proof/Machine/StatusCommands.lean ====
section
/-! DEFINITION. Machine/StatusCommands.lean: CLEAR (45_status.md R190) and the reserved opcodes (30_encoding.md R101). -/

namespace Sys2Proof.Machine

/-- CLEAR (R190): accepted while busy. -/
def execClear (s : State) : Answer := .next (clearStatus s)

/-- RESERVED.OP0 (R101): refused with RESERVED_OPCODE, whatever the other bits. -/
def execReservedOp0 (_hi : BitVec 12) (s : State) : Answer := .next (refuse .reservedOpcode s)

/-- RESERVED.OP8-F (R101): refused with RESERVED_OPCODE, whatever the other bits. -/
def execReservedOp8F (_op : BitVec 4) (_hi : BitVec 12) (s : State) : Answer := .next (refuse .reservedOpcode s)

end Sys2Proof.Machine
end

