-- ==== Sys2Proof/Machine/Transaction.lean ====
section
/-! DEFINITION. Machine/Transaction.lean: XACT, the four FRAME rows and FLUSH (44_transaction.md R160, R165, R180). -/

namespace Sys2Proof.Machine

/-- XACT once accepted, for the expected reply length `exp` (`none` is UNSUPPORTED): length, function, connection, in that
order, each ending the transaction at once; else the transmit phase begins (R165). -/
def startTransaction (exp : Option (BitVec 9)) (s : State) : State :=
  if s.txLen.toNat < 7 ∨ 8 < s.txLen.toNat then finish .badLength (clearOutcome s)
  else match exp with
    | none => finish .unsupportedFunction (clearOutcome s)
    | some e => if s.linkOpen then beginTx e (clearOutcome s) else finish .notConnected (clearOutcome s)

/-- XACT (R165): refused while busy, else a transaction of the request in `TxBuf`. -/
def execXact (s : State) : Answer := .next (whenIdle (fun s => startTransaction (replyLen s) s) s)

/-- The transaction of a request whose function code is `fn` (R160, R165): what XACT does when `TxBuf[3]` is that code
(log 8). -/
def transactFrame (fn : FnCode) (s : State) : State := whenIdle (fun s => startTransaction (replyLenOf fn s) s) s

/-- FRAME.READ (R82, R160): the reply is 7 + count bytes. -/
def execFrameRead (s : State) : Answer := .next (transactFrame .read s)

/-- FRAME.WRITE (R82, R160): the reply is 8 bytes. -/
def execFrameWrite (s : State) : Answer := .next (transactFrame .write s)

/-- FRAME.CONTROL (R82, R160): the reply is as long as the request. -/
def execFrameControl (s : State) : Answer := .next (transactFrame .control s)

/-- FRAME.REQUEST (R82, R160): unsupported. -/
def execFrameRequest (s : State) : Answer := .next (transactFrame .request s)

/-- FLUSH (R180): refused while busy, else the FIFO is emptied. -/
def execFlush (s : State) : Answer := .next (whenIdle (fun s => { s with fifo := [] }) s)

end Sys2Proof.Machine
end

