-- ==== Sys2Proof/Machine/Dispatch.lean ====
section
/-! DEFINITION. Machine/Dispatch.lean: one arm per instruction (30_encoding.md R91). -/

namespace Sys2Proof.Machine

def exec (i : Instr) (s : State) : Host.Outcome State Fault Refusal :=
  match i with
  -- 41_crc.md
  | .crcInit => Sys2Proof.Machine.execCrcInit s
  | .crcByte b => Sys2Proof.Machine.execCrcByte b s
  -- 42_encode.md
  | .encRead p => Sys2Proof.Machine.execEncRead p s
  | .encWrite p => Sys2Proof.Machine.execEncWrite p s
  | .encControl p => Sys2Proof.Machine.execEncControl p s
  | .encRequest p => Sys2Proof.Machine.execEncRequest p s
  -- 43_decode.md
  | .validate => Sys2Proof.Machine.execValidate s
  -- 44_transaction.md
  | .xact => Sys2Proof.Machine.execXact s
  | .flush => Sys2Proof.Machine.execFlush s
  -- 45_status.md
  | .clear => Sys2Proof.Machine.execClear s
  -- 30_encoding.md R101
  | .reservedOp0 hi => Sys2Proof.Machine.execReservedOp0 hi s
  | .reservedOp8F op hi => Sys2Proof.Machine.execReservedOp8F op hi s
  -- 30_encoding.md R82, 44_transaction.md R160
  | .frameRead => Sys2Proof.Machine.execFrameRead s
  | .frameWrite => Sys2Proof.Machine.execFrameWrite s
  | .frameControl => Sys2Proof.Machine.execFrameControl s
  | .frameRequest => Sys2Proof.Machine.execFrameRequest s

end Sys2Proof.Machine
end

