-- ==== Sys2Proof/Machine/Engine.lean ====
section
/-! DEFINITION. Machine/Engine.lean: the engine's steps (44_transaction.md R171 to R173) and the line's (R175 to R177). -/

namespace Sys2Proof.Machine

/-! ## The engine -/

/-- Emit `TxBuf[TX_IDX]` and advance `TX_IDX` (R171). -/
def sendByte (s : State) : State :=
  { s with wireOut := s.wireOut ++ [readTx s.txIdx.toNat s], txIdx := s.txIdx + 1 }

/-- `EngineTx` (R171): emit one request byte, entering RX after the last, or end the transaction if the link is closed. -/
def engineTx (s : State) : State :=
  if s.linkOpen then
    if s.txIdx + 1 = s.txLen then { sendByte s with phase := .rx } else sendByte s
  else finish .connectionClosed s

/-- Store one buffered byte at `RxBuf[RX_LEN]` and advance `RX_LEN`; `rest` is the FIFO after it (R172). -/
def receiveByte (b : Byte) (rest : List Byte) (s : State) : State :=
  { s with fifo := rest, rxBuf := writeBuf s.rxBuf s.rxLen.toNat b, rxLen := s.rxLen + 1 }

/-- The result of a complete reception: OK if the frame is valid, else INVALID_FRAME (R172). -/
def receptionResult (ok : Bool) : Result := if ok then .ok else .invalidFrame

/-- After the last reply byte: validate `RxBuf[0..RX_LEN)` and finish (R172). -/
def finishReception (s : State) : State :=
  finish (receptionResult (check s.rxLen.toNat s).ok) (validateFrame s.rxLen.toNat s)

/-- `EngineRx` (R172): consume one buffered byte, validating and finishing at the last; with none buffered (and the link
closed) the connection is closed. -/
def engineRx (s : State) : State :=
  match s.fifo with
  | b :: rest => if s.rxLen + 1 = s.rxExp then finishReception (receiveByte b rest s) else receiveByte b rest s
  | [] => finish .connectionClosed s

/-- When the engine has a step (R171 to R173). -/
def engineEnabled (s : State) : Bool :=
  match s.phase with
  | .idle => false
  | .tx => true
  | .rx => !s.fifo.isEmpty || !s.linkOpen

/-- The engine's step in each phase; in IDLE it has none (R173). -/
def engineStep (s : State) : State :=
  match s.phase with
  | .idle => s
  | .tx => engineTx s
  | .rx => engineRx s

/-! ## The line -/

/-- `Deliver(b)` into a FIFO of depth `depth` (R175): the newest byte is dropped if it is full. -/
def deliverInto (depth : Nat) (b : Byte) (s : State) : State :=
  if s.fifo.length < depth then { s with fifo := s.fifo ++ [b] } else { s with rxOvf := true }

/-- `Deliver(b)` (R175). -/
def deliver (b : Byte) (s : State) : State := deliverInto Config.rxFifoDepth b s

/-- When the line may raise a timeout (R177). -/
def timeoutEnabled (s : State) : Bool := s.phase == .rx && s.fifo.isEmpty && s.linkOpen

/-- `Timeout()` (R177). -/
def timeout (s : State) : State := finish .readTimeout s

/-- `LinkDown` and `LinkUp` (R176). -/
def setLink (up : Bool) (s : State) : State := { s with linkOpen := up }

end Sys2Proof.Machine
end

