-- ==== Sys2Proof/Machine/Schedule.lean ====
section
/-! DEFINITION. Machine/Schedule.lean: a host's access, the dispatch of a command word, and one event of any agent
(00_scope.md R6, 20_memory.md R61, R62, 30_encoding.md R100). -/

namespace Sys2Proof.Machine

/-! ## Commands -/

/-- The refusal of a word that is no command of the table: RESERVED_BITS at once; BAD_FUNCTION after the busy check
(30_encoding.md R100, R102). -/
def rejectCommand (r : CommandReject) (s : State) : State :=
  match r with
  | .reservedBits => refuse .reservedBits s
  | .badFunction => whenIdle (refuse .badFunction) s

/-- `Dispatch(w)`: a write of `w` to `CMD` (30_encoding.md R100, 10_state.md R23). -/
def command (w : Word) (s : State) : Answer :=
  match decodeCommand w with
  | .ok i => exec i s
  | .error r => .next (rejectCommand r s)

/-! ## Host accesses -/

/-- Hand a value to host `h`: the block itself does not change (20_memory.md R65; log 6). -/
def returnRead (h : Nat) (v : Word) (s : State) : State := { s with hostReads := s.hostReads ++ [(h, v)] }

/-- One access by host `h` (20_memory.md R61, R62; 10_state.md R22). A buffer write while busy is refused with BUSY whatever
its index: R61 refuses any buffer write while busy, and says of an index outside the buffer that the write is ignored and no
refusal; where both hold, the model refuses (DESIGN CHOICE, log 18). -/
def hostAccess (h : Nat) (a : Access) (s : State) : Answer :=
  match a with
  | .readReg i => .next (returnRead h (readSlot i s) s)
  | .writeReg i v =>
    match Reg.ofIndex i with
    | some .cmd => command v s
    | some r => .next (writeReg r v s)
    | none => .next s
  | .readTx i => .next (returnRead h ((readTx i s).setWidth 16) s)
  | .writeTx i b => .next (whenIdle (fun s => { s with txBuf := writeBuf s.txBuf i b }) s)
  | .readRx i => .next (returnRead h ((readRx i s).setWidth 16) s)
  | .writeRx i b => .next (whenIdle (fun s => { s with rxBuf := writeBuf s.rxBuf i b }) s)

/-! ## Events -/

/-- When an event may happen (00_scope.md R6; 44_transaction.md R171 to R177). -/
def enabled (e : Event) (s : State) : Bool :=
  match e with
  | .host h _ => h < Config.nHosts
  | .engine => engineEnabled s
  | .deliver _ => s.linkOpen
  | .timeout => timeoutEnabled s
  | .linkDown => s.linkOpen
  | .linkUp => !s.linkOpen
  | .reset => true

/-- The effect of an event that may happen. -/
def happen (e : Event) (s : State) : Answer :=
  match e with
  | .host h a => hostAccess h a s
  | .engine => .next (engineStep s)
  | .deliver b => .next (deliver b s)
  | .timeout => .next (timeout s)
  | .linkDown => .next (setLink false s)
  | .linkUp => .next (setLink true s)
  | .reset => .next (resetBlock s)

/-- One event: an event that may not happen now does not happen (log 1). -/
def perform (e : Event) (s : State) : Answer := if enabled e s then happen e s else .next s

/-- The next event: the agenda's head, or a free event where the agenda is empty (log 1). -/
def nextEvent (s : State) : Event :=
  match s.agenda with
  | e :: _ => e
  | [] => Config.freeEvent s.draws

/-- The state once its next event is taken off the agenda, or drawn. -/
def takeEvent (s : State) : State :=
  match s.agenda with
  | _ :: rest => { s with agenda := rest }
  | [] => { s with draws := s.draws + 1 }

/-! ## Placing an instruction -/

/-- The request frame of a wire function code with every operand zero: address 0, sub-address 0, one payload byte 0. -/
def zeroRequest (fn : Byte) : List Byte := encodeFrame { addr := 0, fn := fn, sub := 0, payload := [0] }

/-- Queue a write of `w` to `CMD` by host 0 as the very next event. -/
def queueCommand (w : Word) (s : State) : State :=
  { s with agenda := .host 0 (.writeReg Reg.cmd.index w) :: s.agenda }

/-- Place a word of the opcode table where the next step takes it (log 7): a command word is host 0's next write to `CMD`;
a wire function code is the function byte of the request in `TxBuf`, with the XACT that transacts it as the next command. -/
def placeWord (nbits w : Nat) (s : State) : State :=
  match if nbits ≤ 8 then decodeWire (BitVec.ofNat 8 w) else .error .notAFunctionCode with
  | .ok _ => queueCommand 0x0005 (loadRequest (zeroRequest (BitVec.ofNat 8 w)) s)
  | .error _ => queueCommand (BitVec.ofNat 16 w) s

end Sys2Proof.Machine
end

