-- ==== Sys2Proof/Machine/Step.lean ====
section
/-! DEFINITION. Machine/Step.lean: one step of the machine, and the placing of an instruction for it. -/

namespace Sys2Proof.Machine

/-- One step: the next event, taken off the agenda or drawn, happens (00_scope.md R6, 20_memory.md R68). -/
def step (s : State) : Host.Outcome State Fault Refusal := perform (nextEvent s) (takeEvent s)

/-- `s` with the instruction of a word of the opcode table placed for the very next step (log 7). -/
def State.withFetchWord (s : State) (nbits w : Nat) : State := placeWord nbits w s

end Sys2Proof.Machine
end

