-- ==== Sys2Proof/Machine/Assembler.lean ====
section
/-! DEFINITION. Machine/Assembler.lean: the host-side assembly language (30_encoding.md R105) and its pseudo-instructions
(R106): statements, the host accesses each stands for, and a reader of the language's spelling. -/

namespace Sys2Proof.Machine

/-- The two buffers a byte statement names (R105). -/
inductive Space where
  | tx | rx
  deriving DecidableEq, Repr

/-- A statement of the assembly language (R105), or a pseudo-instruction (R106). -/
inductive Stmt where
  /-- A statement that writes the word of one instruction to `CMD`. -/
  | instr (i : Instr)
  /-- `CMDW imm16`: a raw write to `CMD`. -/
  | cmdw (w : Word)
  /-- `WR name, imm16`. -/
  | wr (r : Reg) (v : Word)
  /-- `RD name`. -/
  | rd (r : Reg)
  /-- `WRB TX[i], imm8` or `WRB RX[i], imm8`. -/
  | wrb (sp : Space) (i : Nat) (b : Byte)
  /-- `RDB TX[i]` or `RDB RX[i]`. -/
  | rdb (sp : Space) (i : Nat)
  /-- `WAIT`: the host repeats it while `waitAgain` holds of the value read. -/
  | wait
  /-- `CRC.BLOCK b0, …`. -/
  | crcBlock (bs : List Byte)
  /-- `SEND fn, addr, sub` or `SEND fn, addr, sub, data`: `sub` and `data` are what `WR ENC_SUB` and `WR ENC_DATA` write, so
  16 bits wide. -/
  | send (fn : FnCode) (addr sub : Word) (data : Option Word)
  /-- `LOADRX b0, …`. -/
  | loadRx (bs : List Byte)
  /-- `CHECK b0, …`. -/
  | checkFrame (bs : List Byte)
  deriving DecidableEq, Repr

/-- Does the language have this statement? An instruction needs a spelling of its own (R105: the reserved opcodes have none
but `CMDW`, the wire function codes none at all), and the number of bytes of `LOADRX` and `CHECK` must fit the `imm16` that
`WR RX_LEN, n` takes (R105, R106). -/
def Stmt.wf : Stmt → Bool
  | .instr i =>
    match i with
    | .crcInit | .crcByte _ | .encRead _ | .encWrite _ | .encControl _ | .encRequest _ | .validate | .xact | .flush
    | .clear => true
    | .reservedOp0 _ | .reservedOp8F _ _ | .frameRead | .frameWrite | .frameControl | .frameRequest => false
  | .loadRx bs | .checkFrame bs => bs.length < 2 ^ 16
  | .cmdw _ | .wr _ _ | .rd _ | .wrb _ _ _ | .rdb _ _ | .wait | .crcBlock _ | .send _ _ _ _ => true

/-! ## Statements as host accesses -/

/-- A write to a named register. -/
def writeNamed (r : Reg) (v : Word) : Access := .writeReg r.index v

/-- The writes to `CMD` an instruction stands for: a command word is one write; a wire function code is none, as no host
access carries it. -/
def instrAccesses (i : Instr) : List Access :=
  match encode i with
  | .command w => [writeNamed .cmd w]
  | .wire _ => []

/-- `WRB RX[i], b0 ; WRB RX[i+1], b1 ; …`. -/
def loadFrom (i : Nat) : List Byte → List Access
  | [] => []
  | b :: bs => .writeRx i b :: loadFrom (i + 1) bs

/-- The accesses of `LOADRX` (R106); the length fits 16 bits in a statement of the language (`Stmt.wf`). -/
def loadRxAccesses (bs : List Byte) : List Access :=
  loadFrom 0 bs ++ [writeNamed .rxLen (BitVec.ofNat 16 bs.length)]

/-- The host accesses a statement stands for, in order (R105, R106). -/
def Stmt.accesses : Stmt → List Access
  | .instr i => instrAccesses i
  | .cmdw w => [writeNamed .cmd w]
  | .wr r v => [writeNamed r v]
  | .rd r => [.readReg r.index]
  | .wrb .tx i b => [.writeTx i b]
  | .wrb .rx i b => [.writeRx i b]
  | .rdb .tx i => [.readTx i]
  | .rdb .rx i => [.readRx i]
  | .wait => [.readReg Reg.status.index]
  | .crcBlock bs => instrAccesses .crcInit ++ bs.flatMap fun b => instrAccesses (.crcByte b)
  | .send fn addr sub none =>
    [writeNamed .encAddr addr, writeNamed .encSub sub] ++ instrAccesses (encodeInstr fn false)
      ++ instrAccesses .xact ++ [.readReg Reg.status.index]
  | .send fn addr sub (some d) =>
    [writeNamed .encAddr addr, writeNamed .encSub sub, writeNamed .encData d]
      ++ instrAccesses (encodeInstr fn true) ++ instrAccesses .xact ++ [.readReg Reg.status.index]
  | .loadRx bs => loadRxAccesses bs
  | .checkFrame bs => loadRxAccesses bs ++ instrAccesses .validate

/-- Does `WAIT` read `STATUS` again: is bit 0 (BUSY) of the value read 1 (R106)? The loop itself is the host's. -/
def waitAgain (v : Word) : Bool := v.getLsbD 0

/-- The events of host `h` running a program's statements in order (20_memory.md R68). -/
def programEvents (h : Nat) (prog : List Stmt) : List Event := (prog.flatMap Stmt.accesses).map (.host h)

/-- `s` with a program of host `h` queued behind the agenda (log 7). -/
def State.queueProgram (h : Nat) (prog : List Stmt) (s : State) : State :=
  { s with agenda := s.agenda ++ programEvents h prog }

/-! ## Reading the language's spelling (R105) -/

/-- Why a line is no statement (R105: an assembler refuses any other spelling). -/
inductive AsmReject where
  | unknownStatement
  | badOperands
  deriving DecidableEq, Repr

/-- The value of a hexadecimal digit. -/
def hexDigit (c : Char) : Option Nat :=
  if '0' ≤ c ∧ c ≤ '9' then some (c.toNat - '0'.toNat)
  else if 'a' ≤ c ∧ c ≤ 'f' then some (c.toNat - 'a'.toNat + 10)
  else if 'A' ≤ c ∧ c ≤ 'F' then some (c.toNat - 'A'.toNat + 10)
  else none

/-- Fold digits of base `base` into a number. -/
def digits (base acc : Nat) : List Char → Option Nat
  | [] => some acc
  | c :: cs => do
    let d ← hexDigit c
    if d < base then digits base (acc * base + d) cs else none

/-- A decimal or `0x` hexadecimal number (R105). -/
def readNat : List Char → Option Nat
  | [] => none
  | '0' :: 'x' :: c :: cs => digits 16 0 (c :: cs)
  | cs => digits 10 0 cs

/-- An immediate that fits `n` bits (R105). -/
def readImm (n : Nat) (cs : List Char) : Option (BitVec n) := do
  let v ← readNat cs
  if v < 2 ^ n then some (BitVec.ofNat n v) else none

/-- Every element read, or nothing. -/
def readAll {α : Type} (f : List Char → Option α) : List (List Char) → Option (List α)
  | [] => some []
  | x :: xs => do
    let a ← f x
    let as ← readAll f xs
    some (a :: as)

/-- The bytes of `CRC.BLOCK`; none at all is read as an empty block (log 15). -/
def readBytes (ops : List (List Char)) : Option (List Byte) := readAll (readImm 8) ops

/-- The bytes of `LOADRX` or `CHECK`, as many as `WR RX_LEN, n` can take (R105, R106); none at all is read as `n = 0`
(log 15). -/
def readLoad (ops : List (List Char)) : Option (List Byte) := do
  let bs ← readBytes ops
  if bs.length < 2 ^ 16 then some bs else none

/-- A register's name (10_state.md R21). -/
def Reg.name : Reg → String
  | .cmd => "CMD"
  | .status => "STATUS"
  | .cmdErr => "CMDERR"
  | .crc => "CRC"
  | .encAddr => "ENC_ADDR"
  | .encSub => "ENC_SUB"
  | .encData => "ENC_DATA"
  | .txLen => "TX_LEN"
  | .rxLen => "RX_LEN"
  | .rxExp => "RX_EXP"
  | .rxAddr => "RX_ADDR"
  | .rxFn => "RX_FN"
  | .rxSub => "RX_SUB"
  | .rxDlen => "RX_DLEN"
  | .dataIdx => "DATA_IDX"
  | .dataAt => "DATA_AT"
  | .rxCrcCalc => "RX_CRC_CALC"
  | .rxCrcRecv => "RX_CRC_RECV"
  | .fifoCount => "FIFO_COUNT"
  | .txIdx => "TX_IDX"

/-- Read a register's name. -/
def readRegName (cs : List Char) : Option Reg := Reg.all.find? fun r => Reg.name r == String.ofList cs

/-- A function's name in `SEND` (R82, R106). -/
def FnCode.name : FnCode → String
  | .read => "READ"
  | .write => "WRITE"
  | .control => "CONTROL"
  | .request => "REQUEST"

/-- Read a function's name. -/
def readFnName (cs : List Char) : Option FnCode :=
  [FnCode.read, .write, .control, .request].find? fun f => FnCode.name f == String.ofList cs

/-- Read `TX[i]` or `RX[i]`. -/
def readPlace (cs : List Char) : Option (Space × Nat) := do
  let sp ← match cs.take 3 with
    | ['T', 'X', '['] => some Space.tx
    | ['R', 'X', '['] => some Space.rx
    | _ => none
  if cs.getLast? = some ']' then
    let i ← readNat ((cs.drop 3).dropLast)
    some (sp, i)
  else none

/-- The statements with no operand (R105, R106). -/
def plainStatements : List (String × Stmt) :=
  [("CRC.INIT", .instr .crcInit), ("VALIDATE", .instr .validate), ("XACT", .instr .xact), ("FLUSH", .instr .flush),
   ("CLEAR", .instr .clear), ("WAIT", .wait), ("ENC.READ", .instr (.encRead false)), ("ENC.READ.P", .instr (.encRead true)),
   ("ENC.WRITE", .instr (.encWrite false)), ("ENC.WRITE.P", .instr (.encWrite true)),
   ("ENC.CONTROL", .instr (.encControl false)), ("ENC.CONTROL.P", .instr (.encControl true)),
   ("ENC.REQUEST", .instr (.encRequest false)), ("ENC.REQUEST.P", .instr (.encRequest true))]

/-- Read the statements that take operands; the outer `none` is an unknown statement (R105, R106). `CRC.BLOCK`, `LOADRX` and
`CHECK` are statements without an operand too, which R106 leaves open (DESIGN CHOICE, log 15). -/
def readWithOperands (head : String) (ops : List (List Char)) : Option (Option Stmt) :=
  if head = "CRC.BYTE" then some (match ops with
    | [b] => (readImm 8 b).map fun b => .instr (.crcByte b)
    | _ => none)
  else if head = "CMDW" then some (match ops with
    | [w] => (readImm 16 w).map .cmdw
    | _ => none)
  else if head = "WR" then some (match ops with
    | [r, v] => do some (.wr (← readRegName r) (← readImm 16 v))
    | _ => none)
  else if head = "RD" then some (match ops with
    | [r] => (readRegName r).map .rd
    | _ => none)
  else if head = "WRB" then some (match ops with
    | [p, b] => do
      let (sp, i) ← readPlace p
      some (.wrb sp i (← readImm 8 b))
    | _ => none)
  else if head = "RDB" then some (match ops with
    | [p] => (readPlace p).map fun q => .rdb q.1 q.2
    | _ => none)
  else if head = "CRC.BLOCK" then some ((readBytes ops).map .crcBlock)
  else if head = "LOADRX" then some ((readLoad ops).map .loadRx)
  else if head = "CHECK" then some ((readLoad ops).map .checkFrame)
  else if head = "SEND" then some (match ops with
    | [f, a, d] => do some (.send (← readFnName f) (← readImm 16 a) (← readImm 16 d) none)
    | [f, a, d, x] => do some (.send (← readFnName f) (← readImm 16 a) (← readImm 16 d) (some (← readImm 16 x)))
    | _ => none)
  else none

/-- Drop the blanks at both ends. -/
def trimBlanks (cs : List Char) : List Char := ((cs.dropWhile (· == ' ')).reverse.dropWhile (· == ' ')).reverse

/-- Split at commas, each part without its outer blanks; no operand at all for an empty text. -/
def splitOperands (cs : List Char) : List (List Char) :=
  if cs.isEmpty then [] else (cs.splitOn ',').map trimBlanks

/-- Read one line of the language: a statement's name, a blank, its operands separated by commas (R105). R105 spells one blank
after the name and one after a comma and says nothing of others: blanks at either end of the line, more than one after the
name or a comma, blanks before a comma and none after it are accepted; a blank inside an operand or a name, and any other
white space, is not (DESIGN CHOICE, log 15). -/
def assembleLine (line : List Char) : Except AsmReject Stmt :=
  let text := trimBlanks line
  let head := String.ofList (text.takeWhile (· != ' '))
  let ops := splitOperands (trimBlanks (text.dropWhile (· != ' ')))
  match plainStatements.find? fun p => p.1 == head with
  | some p => if ops.isEmpty then .ok p.2 else .error .badOperands
  | none =>
    match readWithOperands head ops with
    | none => .error .unknownStatement
    | some none => .error .badOperands
    | some (some st) => .ok st

end Sys2Proof.Machine
end

