-- ==== Sys2Proof/Safety.lean ====
section
/-! DEFINITION. Safety.lean: the terms claims are stated in: what two states have in common as the host and the line see
them, what a refusal leaves, how a transaction starts and ends, and the invariants of the block. -/

namespace Sys2Proof.Machine

/-! ## What stays the same between two states -/

/-- Every named register but those listed reads the same (10_state.md R21). -/
def SameRegs (changed : List Reg) (s t : State) : Prop := ∀ r : Reg, r ∉ changed → readReg r t = readReg r s

/-- Every byte of `TxBuf` reads the same (20_memory.md R61). -/
def SameTx (s t : State) : Prop := ∀ i : Nat, readTx i t = readTx i s

/-- Every byte of `RxBuf` reads the same (20_memory.md R61). -/
def SameRx (s t : State) : Prop := ∀ i : Nat, readRx i t = readRx i s

/-- The line side is the same: the FIFO, the link and the wire trace (10_state.md R42 to R44). -/
def SameLine (s t : State) : Prop := t.fifo = s.fifo ∧ t.linkOpen = s.linkOpen ∧ t.wireOut = s.wireOut

/-- The model's own fields are the same. -/
def SameOutside (s t : State) : Prop := t.agenda = s.agenda ∧ t.draws = s.draws ∧ t.hostReads = s.hostReads

/-- Everything is the same but the listed registers. -/
def OnlyRegs (changed : List Reg) (s t : State) : Prop :=
  SameRegs changed s t ∧ SameTx s t ∧ SameRx s t ∧ SameLine s t ∧ SameOutside s t

/-- `STATUS` is the same outside the bits of `mask`. -/
def SameStatusBut (mask : Word) (s t : State) : Prop := statusWord t &&& ~~~mask = statusWord s &&& ~~~mask

/-! ## Refusals, starts and ends -/

/-- The answer is the state before with `CMDERR` holding `code` and `STATUS.CMD_ERR` set, and nothing else changed
(30_encoding.md R100, 60_exceptions.md R205). -/
def RefusedWith (code : RefusalCode) (s : State) (a : Answer) : Prop :=
  ∃ t, a = .next t ∧ readReg .cmdErr t = code.code.setWidth 16 ∧ statusWord t = statusWord s ||| 0x0020#16 ∧
    OnlyRegs [.status, .cmdErr] s t

/-- The transaction ended inside the XACT step with result `r` (44_transaction.md R165): DONE is 1, VALID 0, the block idle;
LINK, RX_OVF and CMD_ERR as before, and nothing else changed. -/
def EndedAtStart (r : Result) (s t : State) : Prop :=
  statusWord t = (r.code.setWidth 16 <<< 8) ||| (statusWord s &&& 0x00E0#16) ||| 0x0008#16 ∧ OnlyRegs [.status] s t

/-- The transmit phase began with expected reply length `e` (44_transaction.md R165): BUSY and PHASE = TX, DONE, RESULT and
VALID 0; LINK, RX_OVF and CMD_ERR as before, RX_EXP, RX_LEN and TX_IDX written, and nothing else changed. -/
def StartedWith (e : Nat) (s t : State) : Prop :=
  statusWord t = (statusWord s &&& 0x00E0#16) ||| 0x0003#16 ∧ (readReg .rxExp t).toNat = e ∧ readReg .rxLen t = 0 ∧
    readReg .txIdx t = 0 ∧ OnlyRegs [.status, .rxExp, .rxLen, .txIdx] s t

/-- A running transaction ended with result `r` (44_transaction.md R170): RESULT, DONE and PHASE (and with it BUSY)
changed, and nothing else. -/
def FinishedWith (r : Result) (s t : State) : Prop :=
  statusWord t = (r.code.setWidth 16 <<< 8) ||| (statusWord s &&& 0x00F0#16) ||| 0x0008#16 ∧ OnlyRegs [.status] s t

/-- `TxBuf` of `t` holds the request with function `fn` and payload `pl` built from the operand registers of `s`, its length
in TX_LEN, and every later byte of `TxBuf` as in `s` (30_encoding.md R80, 42_encode.md R124). -/
def RequestBuilt (fn : Byte) (pl : List Byte) (s t : State) : Prop :=
  (∀ i < 5 + pl.length, readTx i t = ([0x55#8, loByte s.encAddr, hiByte s.encAddr, fn, s.encSub] ++ pl).getD i 0) ∧
  readTx (5 + pl.length) t = loByte (crc16 ([0x55#8, loByte s.encAddr, hiByte s.encAddr, fn, s.encSub] ++ pl)) ∧
  readTx (6 + pl.length) t = hiByte (crc16 ([0x55#8, loByte s.encAddr, hiByte s.encAddr, fn, s.encSub] ++ pl)) ∧
  (∀ i, 7 + pl.length ≤ i → readTx i t = readTx i s) ∧
  (readReg .txLen t).toNat = 7 + pl.length ∧
  SameRegs [.txLen] s t ∧ SameRx s t ∧ SameLine s t ∧ SameOutside s t

/-- The bytes `RxBuf[0..n)`, read one by one. -/
def rxBytes (n : Nat) (s : State) : List Byte := (List.range n).map fun i => readRx i s

/-! ## Invariants -/

/-- The invariants of 10_state.md R58, with the range of RX_EXP in TX as well: R58 gives it for RX only, and without it
the step from TX to RX would not keep them (log 14). -/
structure State.Inv (s : State) : Prop where
  fifo_bounded : s.fifo.length ≤ Config.rxFifoDepth
  in_tx : s.phase = .tx → (s.txLen = 7 ∨ s.txLen = 8) ∧ s.txIdx.toNat < s.txLen.toNat ∧ s.rxLen = 0 ∧
    7 ≤ s.rxExp.toNat ∧ s.rxExp.toNat ≤ 262
  in_rx : s.phase = .rx → (s.txLen = 7 ∨ s.txLen = 8) ∧ 7 ≤ s.rxExp.toNat ∧ s.rxExp.toNat ≤ 262 ∧
    s.rxLen.toNat < s.rxExp.toNat

/-- The latched outcomes agree with each other: DONE is set exactly when a result is held (R200), CMD_ERR exactly when a
refusal code is held (R201), and while busy no outcome is held and VALID is 0 (R241). -/
structure State.OutcomesAgree (s : State) : Prop where
  done_iff_result : s.done = true ↔ s.result ≠ .none
  cmd_err_iff_code : s.cmdErr = true ↔ s.cmdErrCode ≠ .none
  busy_pending : s.busy = true → s.done = false ∧ s.valid = false

/-- The bytes on the wire since `before` are the first TX_IDX bytes of the request (44_transaction.md R174). -/
def SentSoFar (before : List Byte) (s : State) : Prop := s.wireOut = before ++ prefixBytes s.txBuf s.txIdx.toNat

/-- `k` steps of the machine. -/
def run (k : Nat) (s : State) : Answer := Host.Core.run Sys2Proof.core k s

/-- A run is safe if it never stops: the block has no traps (60_exceptions.md R205). -/
def Answer.Safe (a : Answer) : Prop := ∃ t, a = .next t

end Sys2Proof.Machine
end

