-- ==== Sys2Proof/Certificates/Slice0/Obligations.lean ====
section
/-! DEFINITION. Certificates/Slice0/Obligations.lean: the statements about the block, from the numbered rules of spec/.
Each says in its docstring which rule it follows. -/

open Sys2Proof Sys2Proof.Machine

/-! ## Encodings -/

/-- Decoding the word of a well-formed instruction gives it back, with every operand (30_encoding.md R82, R90 to R93). -/
def Obligations.DecodeOfEncodeIsInstruction : Prop :=
  ∀ i : Instr, i.wf = true → decode (encode i) = .ok i

/-- Each word has one meaning: what decodes is well formed and encodes to that word (R90, R91). -/
def Obligations.EncodeOfDecodeIsWord : Prop :=
  ∀ (w : InstrWord) (i : Instr), decode w = .ok i → i.wf = true ∧ encode i = w

/-- The decoder and the opcode table agree (R91): a word that decodes to an instruction of a row matches the row, and a word
that matches a row decodes to an instruction of that row. -/
def Obligations.DecoderAgreesWithOpcodeTable : Prop :=
  ∀ w : Word,
    (∀ (i : Instr) (r : OpcodeRow), decodeCommand w = .ok i → i.row = some r → w &&& r.mask = r.bits) ∧
    (∀ r ∈ opcodeRows, w &&& r.mask = r.bits → ∃ i, decodeCommand w = .ok i ∧ i.row = some r)

/-- Words written out from the tables of R91, R105 and R82 decode to what they stand for. -/
def Obligations.SampleWordsDecode : Prop :=
  decode (.command 0x5502) = .ok (.crcByte 0x55) ∧ decode (.command 0x0113) = .ok (.encRead true) ∧
  decode (.command 0x0023) = .ok (.encWrite false) ∧ decode (.command 0x0033) = .ok (.encControl false) ∧
  decode (.command 0x0143) = .ok (.encRequest true) ∧ decode (.command 0x0004) = .ok .validate ∧
  decode (.command 0x0005) = .ok .xact ∧ decode (.command 0x0006) = .ok .flush ∧
  decode (.command 0x0007) = .ok .clear ∧ decode (.command 0xFFF0) = .ok (.reservedOp0 0xFFF) ∧
  decode (.command 0x0008) = .ok (.reservedOp8F 8 0) ∧ decode (.command 0x0011) = .error (.command .reservedBits) ∧
  decode (.command 0x0053) = .error (.command .badFunction) ∧ decode (.wire 0x04) = .ok .frameRequest ∧
  decode (.wire 0x05) = .error (.wire .notAFunctionCode)

/-- Reading an encoded wire frame gives its fields back (R80, R81, 43_decode.md R140; the source's round trip, S4). -/
def Obligations.FrameDecodeOfEncode : Prop :=
  ∀ f : Frame, f.wf = true → decodeFrame (encodeFrame f) = .ok f

/-- A byte sequence read as a frame is the encoding of what was read, and has 7 to 262 bytes (R80, R81, R140). -/
def Obligations.FrameEncodeOfDecode : Prop :=
  ∀ (bs : List Byte) (f : Frame), decodeFrame bs = .ok f → f.wf = true ∧ encodeFrame f = bs

/-- `AddrOK` is the sets of R85. -/
def Obligations.AddressClassesOfFunctions : Prop :=
  ∀ a : Byte,
    (addrOK .read a = true ↔ a ∈ [0x00#8, 0x01#8, 0x02#8, 0x03#8, 0x04#8, 0x05#8, 0x27#8, 0x28#8]) ∧
    (addrOK .write a = true ↔ a ∈ [0x00#8, 0x01#8, 0x02#8, 0x03#8, 0x04#8, 0x05#8, 0x27#8, 0x28#8]) ∧
    (addrOK .control a = true ↔ a ∈ [0x01#8, 0x02#8, 0x03#8, 0x04#8, 0x07#8, 0x08#8, 0x09#8, 0x0A#8, 0x0B#8]) ∧
    addrOK .request a = true

/-! ## CRC -/

/-- CRC.INIT (41_crc.md R111): the word is exactly 0x0001; CRC becomes 0xFFFF and nothing else changes, busy or not; any
other word with its opcode is refused with RESERVED_BITS. -/
def Obligations.CrcInitResetsAccumulator : Prop :=
  ∀ s : State,
    decodeCommand 0x0001#16 = .ok .crcInit ∧
    (∃ t, exec .crcInit s = .next t ∧ readReg .crc t = 0xFFFF#16 ∧ OnlyRegs [.crc] s t) ∧
    (∀ w : Word, w.toNat % 16 = 1 → w ≠ 0x0001#16 → RefusedWith .reservedBits s (command w s))

/-- CRC.BYTE (41_crc.md R112, R110): the word is `(b << 8) | 2`; the byte is XORed into the low byte of CRC and eight
shift iterations follow; nothing else changes, busy or not; with `w[7:4]` not 0 it is refused with RESERVED_BITS. -/
def Obligations.CrcByteFoldsOneByte : Prop :=
  ∀ (b : Byte) (s : State),
    decodeCommand ((b.setWidth 16 <<< 8) ||| 0x0002#16) = .ok (.crcByte b) ∧
    (∃ t, exec (.crcByte b) s = .next t ∧
      readReg .crc t =
        (fun c : Word => if c.getLsbD 0 = true then (c >>> 1) ^^^ 0xA001#16 else c >>> 1)^[8]
          (readReg .crc s ^^^ b.setWidth 16) ∧
      OnlyRegs [.crc] s t) ∧
    (∀ w : Word, w.toNat % 16 = 2 → w.toNat / 16 % 16 ≠ 0 → RefusedWith .reservedBits s (command w s))

/-- `CRC.BLOCK` (30_encoding.md R106, 41_crc.md R112): after CRC.INIT and one CRC.BYTE per byte, CRC holds the CRC16 of the
bytes, and no other register, buffer or line state changed. -/
def Obligations.CrcBlockLeavesCrc16 : Prop :=
  ∀ (h : Nat) (bs : List Byte) (more : List Event) (s : State), h < Config.nHosts →
    s.agenda = programEvents h [.crcBlock bs] ++ more →
    ∃ t, run (1 + bs.length) s = .next t ∧ readReg .crc t = crc16 bs ∧ SameRegs [.crc] s t ∧ SameTx s t ∧ SameRx s t ∧
      SameLine s t ∧ t.agenda = more

/-- Residue (41_crc.md R114): a sequence followed by its own CRC16, low byte first, folds to zero. -/
def Obligations.CrcResidueIsZero : Prop :=
  ∀ x : List Byte, crc16 (x ++ [loByte (crc16 x), hiByte (crc16 x)]) = 0#16

/-- Single-bit error detection (41_crc.md R113): flip any one bit of a valid frame and it is no longer valid; a flip outside
the trailer changes the computed CRC and leaves the trailer, a flip inside it the other way round, and one in byte 0 also breaks
the start marker. -/
def Obligations.SingleBitFlipInvalidatesFrame : Prop :=
  ∀ (s t s' : State) (k j : Nat), s.busy = false → t.busy = false → 7 ≤ s.rxLen.toNat → s.rxLen.toNat ≤ 262 →
    t.rxLen = s.rxLen → exec .validate s = .next s' → s'.valid = true → k < s.rxLen.toNat → j < 8 →
    readRx k t = readRx k s ^^^ (1#8 <<< j) →
    (∀ i, i < s.rxLen.toNat → i ≠ k → readRx i t = readRx i s) →
    ∃ t', exec .validate t = .next t' ∧ t'.valid = false ∧
      (k + 2 < s.rxLen.toNat → t'.rxCrcRecv = s'.rxCrcRecv ∧ t'.rxCrcCalc ≠ s'.rxCrcCalc) ∧
      (s.rxLen.toNat ≤ k + 2 → t'.rxCrcCalc = s'.rxCrcCalc ∧ t'.rxCrcRecv ≠ s'.rxCrcRecv) ∧
      (k = 0 → readRx 0 t ≠ 0x55#8)

/-! ## ENCODE -/

/-- ENC.READ (42_encode.md R120, R124): refused with BUSY while busy, with BAD_ADDRESS for a sub-address that is no data
address, else the READ request with its count is built; the words are 0x0013 and 0x0113. -/
def Obligations.EncReadBuildsReadRequest : Prop :=
  ∀ (p : Bool) (s : State),
    decodeCommand (if p then 0x0113#16 else 0x0013#16) = .ok (.encRead p) ∧
    (∀ w : Word, w.toNat % 256 = 0x13 → 512 ≤ w.toNat → RefusedWith .reservedBits s (command w s)) ∧
    (s.busy = true → RefusedWith .busy s (exec (.encRead p) s)) ∧
    (s.busy = false → s.encSub ∉ [0x00#8, 0x01#8, 0x02#8, 0x03#8, 0x04#8, 0x05#8, 0x27#8, 0x28#8] →
      RefusedWith .badAddress s (exec (.encRead p) s)) ∧
    (s.busy = false → s.encSub ∈ [0x00#8, 0x01#8, 0x02#8, 0x03#8, 0x04#8, 0x05#8, 0x27#8, 0x28#8] →
      ∃ t, exec (.encRead p) s = .next t ∧ RequestBuilt 0x01 [if p then s.encData else 0x01#8] s t)

/-- ENC.WRITE (R121, R124): as ENC.READ, with no payload or the byte ENC_DATA; the words are 0x0023 and 0x0123. -/
def Obligations.EncWriteBuildsWriteRequest : Prop :=
  ∀ (p : Bool) (s : State),
    decodeCommand (if p then 0x0123#16 else 0x0023#16) = .ok (.encWrite p) ∧
    (∀ w : Word, w.toNat % 256 = 0x23 → 512 ≤ w.toNat → RefusedWith .reservedBits s (command w s)) ∧
    (s.busy = true → RefusedWith .busy s (exec (.encWrite p) s)) ∧
    (s.busy = false → s.encSub ∉ [0x00#8, 0x01#8, 0x02#8, 0x03#8, 0x04#8, 0x05#8, 0x27#8, 0x28#8] →
      RefusedWith .badAddress s (exec (.encWrite p) s)) ∧
    (s.busy = false → s.encSub ∈ [0x00#8, 0x01#8, 0x02#8, 0x03#8, 0x04#8, 0x05#8, 0x27#8, 0x28#8] →
      ∃ t, exec (.encWrite p) s = .next t ∧ RequestBuilt 0x02 (if p then [s.encData] else []) s t)

/-- ENC.CONTROL (R122, R124): as ENC.WRITE, over the control addresses; the words are 0x0033 and 0x0133. -/
def Obligations.EncControlBuildsControlRequest : Prop :=
  ∀ (p : Bool) (s : State),
    decodeCommand (if p then 0x0133#16 else 0x0033#16) = .ok (.encControl p) ∧
    (∀ w : Word, w.toNat % 256 = 0x33 → 512 ≤ w.toNat → RefusedWith .reservedBits s (command w s)) ∧
    (s.busy = true → RefusedWith .busy s (exec (.encControl p) s)) ∧
    (s.busy = false → s.encSub ∉ [0x01#8, 0x02#8, 0x03#8, 0x04#8, 0x07#8, 0x08#8, 0x09#8, 0x0A#8, 0x0B#8] →
      RefusedWith .badAddress s (exec (.encControl p) s)) ∧
    (s.busy = false → s.encSub ∈ [0x01#8, 0x02#8, 0x03#8, 0x04#8, 0x07#8, 0x08#8, 0x09#8, 0x0A#8, 0x0B#8] →
      ∃ t, exec (.encControl p) s = .next t ∧ RequestBuilt 0x03 (if p then [s.encData] else []) s t)

/-- ENC.REQUEST (R123, R124): as ENC.WRITE, with any sub-address; the words are 0x0043 and 0x0143. -/
def Obligations.EncRequestBuildsRequestFrame : Prop :=
  ∀ (p : Bool) (s : State),
    decodeCommand (if p then 0x0143#16 else 0x0043#16) = .ok (.encRequest p) ∧
    (∀ w : Word, w.toNat % 256 = 0x43 → 512 ≤ w.toNat → RefusedWith .reservedBits s (command w s)) ∧
    (s.busy = true → RefusedWith .busy s (exec (.encRequest p) s)) ∧
    (s.busy = false →
      ∃ t, exec (.encRequest p) s = .next t ∧ RequestBuilt 0x04 (if p then [s.encData] else []) s t)

/-- By construction an encoded request satisfies the validity predicate (42_encode.md R124): copied into RxBuf and validated,
it is valid. -/
def Obligations.EncodedRequestValidates : Prop :=
  ∀ (fn : FnCode) (p : Bool) (s t u : State), s.busy = false → addrOK fn s.encSub = true →
    exec (encodeInstr fn p) s = .next t → u.busy = false → u.rxLen.toNat = t.txLen.toNat →
    (∀ i < t.txLen.toNat, readRx i u = readTx i t) →
    ∃ v, exec .validate u = .next v ∧ v.valid = true ∧ v.rxCrcCalc = v.rxCrcRecv

/-! ## Parser -/

/-- VALIDATE (43_decode.md R142, R140): refused while busy; a length outside 7 to 262 clears VALID and changes nothing else;
else VALID, RX_CRC_CALC and RX_CRC_RECV are written from `RxBuf[0..RX_LEN)` and nothing else changes. -/
def Obligations.ValidateChecksFrame : Prop :=
  ∀ s : State,
    (∀ w : Word, w.toNat % 16 = 4 → w ≠ 0x0004#16 → RefusedWith .reservedBits s (command w s)) ∧
    (s.busy = true → RefusedWith .busy s (exec .validate s)) ∧
    (s.busy = false → s.rxLen.toNat < 7 ∨ 262 < s.rxLen.toNat →
      ∃ t, exec .validate s = .next t ∧ statusWord t = statusWord s &&& 0xFFEF#16 ∧ OnlyRegs [.status] s t) ∧
    (s.busy = false → 7 ≤ s.rxLen.toNat → s.rxLen.toNat ≤ 262 →
      ∃ t, exec .validate s = .next t ∧ readReg .rxCrcCalc t = crc16 (rxBytes (s.rxLen.toNat - 2) s) ∧
        (readReg .rxCrcRecv t).toNat =
          (readRx (s.rxLen.toNat - 2) s).toNat + 256 * (readRx (s.rxLen.toNat - 1) s).toNat ∧
        ((statusWord t).getLsbD 4 = true ↔
          readRx 0 s = 0x55#8 ∧ readReg .rxCrcRecv t = readReg .rxCrcCalc t) ∧
        SameStatusBut 0x0010#16 s t ∧ OnlyRegs [.status, .rxCrcCalc, .rxCrcRecv] s t)

/-- The field views (43_decode.md R150 to R154) read bytes 1 to 5 and `5 + DATA_IDX` of RxBuf, and that index always lies
inside the buffer. -/
def Obligations.ViewsReadReceiveBuffer : Prop :=
  ∀ s : State,
    (readReg .rxAddr s).toNat = (readRx 1 s).toNat + 256 * (readRx 2 s).toNat ∧
    (readReg .rxFn s).toNat = (readRx 3 s).toNat ∧ (readReg .rxSub s).toNat = (readRx 4 s).toNat ∧
    (readReg .rxDlen s).toNat = (readRx 5 s).toNat ∧
    (readReg .dataAt s).toNat = (readRx (5 + (readReg .dataIdx s).toNat) s).toNat ∧
    5 + (readReg .dataIdx s).toNat ≤ 260

/-! ## Transactions -/

/-- XACT (44_transaction.md R165, R160): refused while busy; else length, function and connection are checked in that order,
each ending the transaction at once, and otherwise the transmit phase begins with the reply length of the request. -/
def Obligations.XactChecksThenStarts : Prop :=
  ∀ s : State,
    (∀ w : Word, w.toNat % 16 = 5 → w ≠ 0x0005#16 → RefusedWith .reservedBits s (command w s)) ∧
    (s.busy = true → RefusedWith .busy s (exec .xact s)) ∧
    (s.busy = false → ∃ t, exec .xact s = .next t ∧
      if s.txLen.toNat < 7 ∨ 8 < s.txLen.toNat then EndedAtStart .badLength s t
      else if readTx 3 s ∉ [0x01#8, 0x02#8, 0x03#8] then EndedAtStart .unsupportedFunction s t
      else if s.linkOpen = false then EndedAtStart .notConnected s t
      else StartedWith
        (if readTx 3 s = 0x01#8 then 7 + (readTx 5 s).toNat else if readTx 3 s = 0x02#8 then 8 else s.txLen.toNat) s t)

/-- The FRAME rows (30_encoding.md R82, 44_transaction.md R160, R165; the reading of the rows is log 8): each is refused
while busy, and else length, function and connection are checked in that order, each ending the transaction at once; a READ
then starts with reply length 7 + count, a WRITE with 8, a CONTROL with the request's own length; a REQUEST of legal length
ends with UNSUPPORTED_FUNCTION, link open or not. -/
def Obligations.FrameRowsTransactTheirRequest : Prop :=
  ∀ (s : State), ∀ p ∈ [(Instr.frameRead, some (7 + (readTx 5 s).toNat)), (.frameWrite, some 8),
      (.frameControl, some s.txLen.toNat), (.frameRequest, none)],
    (s.busy = true → RefusedWith .busy s (exec p.1 s)) ∧
    (s.busy = false → ∃ t, exec p.1 s = .next t ∧
      if s.txLen.toNat < 7 ∨ 8 < s.txLen.toNat then EndedAtStart .badLength s t
      else if p.2 = none then EndedAtStart .unsupportedFunction s t
      else if s.linkOpen = false then EndedAtStart .notConnected s t
      else StartedWith (p.2.getD 0) s t)

/-- XACT runs the frame in TxBuf (R160, R165; log 8): when byte 3 is a function code, XACT is that code's FRAME row. -/
def Obligations.XactRunsFrameInTxBuf : Prop :=
  ∀ (s : State) (fn : FnCode), readTx 3 s = fn.code → exec .xact s = exec (frameInstr fn) s

/-- FLUSH (R180): refused while busy; else the FIFO is emptied and nothing else changes. -/
def Obligations.FlushEmptiesFifo : Prop :=
  ∀ s : State,
    (∀ w : Word, w.toNat % 16 = 6 → w ≠ 0x0006#16 → RefusedWith .reservedBits s (command w s)) ∧
    (s.busy = true → RefusedWith .busy s (exec .flush s)) ∧
    (s.busy = false → ∃ t, exec .flush s = .next t ∧ t.fifo = [] ∧ readReg .fifoCount t = 0#16 ∧
      SameRegs [.fifoCount] s t ∧ SameTx s t ∧ SameRx s t ∧ t.linkOpen = s.linkOpen ∧ t.wireOut = s.wireOut ∧
      SameOutside s t)

/-- The transmit step (R171, R170), and that there is none while idle (R173): in TX the engine always has a step; with the
link closed the transaction ends with CONNECTION_CLOSED; else `TxBuf[TX_IDX]` goes on the wire, TX_IDX advances, the phase
becomes RX after the last byte, and nothing else changes. In IDLE the engine has no step, and an event of it is passed
over, which is the model's choice (log 1). -/
def Obligations.EngineTransmitsOneByte : Prop :=
  ∀ s : State, (s.phase = .idle → enabled .engine s = false ∧ perform .engine s = .next s) ∧
    (s.phase = .tx → enabled .engine s = true ∧
      (s.linkOpen = false → ∃ t, perform .engine s = .next t ∧ FinishedWith .connectionClosed s t) ∧
      (s.linkOpen = true → ∃ t, perform .engine s = .next t ∧ t.wireOut = s.wireOut ++ [readTx s.txIdx.toNat s] ∧
        t.txIdx = s.txIdx + 1 ∧ t.phase = (if s.txIdx + 1 = s.txLen then Phase.rx else Phase.tx) ∧
        SameStatusBut 0x0006#16 s t ∧ SameRegs [.status, .txIdx] s t ∧ SameTx s t ∧ SameRx s t ∧ t.fifo = s.fifo ∧
        t.linkOpen = s.linkOpen ∧ SameOutside s t))

/-- The receive step (R172, R170), in states that meet the invariants: a buffered byte is stored at `RxBuf[RX_LEN]` before a
closed link is reported; at the last byte the frame is validated and the transaction ends with OK or INVALID_FRAME; with the
FIFO empty and the link closed it ends with CONNECTION_CLOSED; with the FIFO empty and the link open there is no step. -/
def Obligations.EngineReceivesOneByte : Prop :=
  ∀ s : State, s.Inv → s.phase = .rx → (enabled .engine s = true ↔ s.fifo ≠ [] ∨ s.linkOpen = false) ∧
    (s.fifo = [] → s.linkOpen = false → ∃ t, perform .engine s = .next t ∧ FinishedWith .connectionClosed s t) ∧
    (∀ (b : Byte) (rest : List Byte), s.fifo = b :: rest → ∃ t, perform .engine s = .next t ∧ t.fifo = rest ∧
      t.rxLen.toNat = s.rxLen.toNat + 1 ∧ readRx s.rxLen.toNat t = b ∧
      (∀ i, i ≠ s.rxLen.toNat → readRx i t = readRx i s) ∧ SameTx s t ∧ t.linkOpen = s.linkOpen ∧
      t.wireOut = s.wireOut ∧ SameOutside s t ∧
      SameRegs [.status, .rxLen, .fifoCount, .rxCrcCalc, .rxCrcRecv, .rxAddr, .rxFn, .rxSub, .rxDlen, .dataAt] s t ∧
      if s.rxLen.toNat + 1 = s.rxExp.toNat then
        t.rxCrcCalc = crc16 (rxBytes (s.rxExp.toNat - 2) t) ∧
        t.rxCrcRecv.toNat = (readRx (s.rxExp.toNat - 2) t).toNat + 256 * b.toNat ∧
        (t.valid = true ↔ readRx 0 t = 0x55#8 ∧ t.rxCrcRecv = t.rxCrcCalc) ∧
        t.result = (if t.valid = true then Result.ok else Result.invalidFrame) ∧ t.done = true ∧ t.phase = .idle ∧
        SameStatusBut 0x0F1F#16 s t
      else statusWord t = statusWord s ∧ t.rxCrcCalc = s.rxCrcCalc ∧ t.rxCrcRecv = s.rxCrcRecv)

/-- What is enabled while a reply is awaited with the FIFO empty (R178): with the link open a timeout, any delivery and a
link drop, and neither the engine nor LinkUp; with it closed the engine and LinkUp only. -/
def Obligations.EventsEnabledWhileWaiting : Prop :=
  ∀ s : State, s.phase = .rx → s.fifo = [] →
    (s.linkOpen = true → enabled .timeout s = true ∧ (∀ b, enabled (.deliver b) s = true) ∧ enabled .linkDown s = true ∧
      enabled .engine s = false ∧ enabled .linkUp s = false) ∧
    (s.linkOpen = false → enabled .engine s = true ∧ enabled .linkUp s = true ∧ enabled .timeout s = false ∧
      (∀ b, enabled (.deliver b) s = false) ∧ enabled .linkDown s = false)

/-- Byte delivery (R175), possible exactly while the link is open: the byte joins the FIFO, or, if the FIFO is full, is
dropped and RX_OVF is set; nothing else changes. -/
def Obligations.LineDeliversByte : Prop :=
  ∀ (b : Byte) (s : State), enabled (.deliver b) s = s.linkOpen ∧
    (s.linkOpen = true → ∃ t, perform (.deliver b) s = .next t ∧ SameTx s t ∧ SameRx s t ∧
      t.linkOpen = s.linkOpen ∧ t.wireOut = s.wireOut ∧ SameOutside s t ∧
      if s.fifo.length < Config.rxFifoDepth then t.fifo = s.fifo ++ [b] ∧ SameRegs [.fifoCount] s t
      else t.fifo = s.fifo ∧ statusWord t = statusWord s ||| 0x0040#16 ∧ SameRegs [.status] s t)

/-- Link changes (R176): down from open and up from closed; only `link_open` changes, and with it STATUS.LINK (10_state.md
R31). -/
def Obligations.LinkChangesOnlyLink : Prop :=
  ∀ s : State, enabled .linkDown s = s.linkOpen ∧ enabled .linkUp s = !s.linkOpen ∧
    (s.linkOpen = true → ∃ t, perform .linkDown s = .next t ∧ t.linkOpen = false ∧
      statusWord t = statusWord s &&& 0xFF7F#16 ∧ SameRegs [.status] s t ∧ SameTx s t ∧ SameRx s t ∧ t.fifo = s.fifo ∧
      t.wireOut = s.wireOut ∧ SameOutside s t) ∧
    (s.linkOpen = false → ∃ t, perform .linkUp s = .next t ∧ t.linkOpen = true ∧
      statusWord t = statusWord s ||| 0x0080#16 ∧ SameRegs [.status] s t ∧ SameTx s t ∧ SameRx s t ∧ t.fifo = s.fifo ∧
      t.wireOut = s.wireOut ∧ SameOutside s t)

/-- Timeout (R177, R170): possible exactly in RX with the FIFO empty and the link open; the transaction then ends with
READ_TIMEOUT and the partial reply is kept. -/
def Obligations.TimeoutEndsTransaction : Prop :=
  ∀ s : State, (enabled .timeout s = true ↔ s.phase = .rx ∧ s.fifo = [] ∧ s.linkOpen = true) ∧
    (s.phase = .rx → s.fifo = [] → s.linkOpen = true →
      ∃ t, perform .timeout s = .next t ∧ FinishedWith .readTimeout s t)

/-- A whole transaction (70_reset_and_hazards.md R250; R165, R171, R172): with the reply already buffered, one XACT write,
TX_LEN transmit steps and as many receive steps as the reply is long end it; the request stands on the wire, the reply in
RxBuf, the bytes after it stay in the FIFO, and the result is OK exactly when the reply is a valid frame. -/
def Obligations.TransactionRunsToResult : Prop :=
  ∀ (s : State) (h e : Nat) (reply rest : List Byte) (more : List Event), h < Config.nHosts → s.busy = false →
    (s.txLen = 7 ∨ s.txLen = 8) → s.linkOpen = true →
    ((readTx 3 s = 0x01#8 ∧ e = 7 + (readTx 5 s).toNat) ∨ (readTx 3 s = 0x02#8 ∧ e = 8) ∨
      (readTx 3 s = 0x03#8 ∧ e = s.txLen.toNat)) →
    s.fifo = reply ++ rest → reply.length = e →
    s.agenda = .host h (.writeReg 0 0x0005) :: (List.replicate (s.txLen.toNat + e) Event.engine ++ more) →
    ∃ t, run (1 + s.txLen.toNat + e) s = .next t ∧
      t.wireOut = s.wireOut ++ prefixBytes s.txBuf s.txLen.toNat ∧ rxBytes e t = reply ∧
      (∀ i, e ≤ i → readRx i t = readRx i s) ∧ t.rxLen.toNat = e ∧ t.fifo = rest ∧ t.phase = .idle ∧ t.done = true ∧
      (t.valid = true ↔ ∃ f, decodeFrame reply = .ok f) ∧
      t.result = (if t.valid = true then Result.ok else Result.invalidFrame) ∧ SameTx s t ∧ t.crc = s.crc ∧
      t.agenda = more

/-! ## CLEAR and reserved opcodes -/

/-- CLEAR (45_status.md R190): DONE, RESULT, CMD_ERR, RX_OVF and CMDERR become 0; VALID, PHASE, BUSY and LINK and all else
stay, busy or not; any other word with its opcode is refused with RESERVED_BITS. -/
def Obligations.ClearClearsLatchedStatus : Prop :=
  ∀ s : State,
    (∀ w : Word, w.toNat % 16 = 7 → w ≠ 0x0007#16 → RefusedWith .reservedBits s (command w s)) ∧
    (∃ t, exec .clear s = .next t ∧ statusWord t = statusWord s &&& 0x0097#16 ∧ readReg .cmdErr t = 0#16 ∧
      OnlyRegs [.status, .cmdErr] s t)

/-- Reserved opcodes (30_encoding.md R101): a word with opcode 0 or 8 to 15 is refused with RESERVED_OPCODE, whatever its
other bits, and does nothing else. -/
def Obligations.ReservedOpcodesRefused : Prop :=
  ∀ (hi : BitVec 12) (s : State),
    decodeCommand (hi ++ 0#4) = .ok (.reservedOp0 hi) ∧
    RefusedWith .reservedOpcode s (exec (.reservedOp0 hi) s) ∧
    (∀ op : BitVec 4, 8 ≤ op.toNat → decodeCommand (hi ++ op) = .ok (.reservedOp8F op hi) ∧
      RefusedWith .reservedOpcode s (exec (.reservedOp8F op hi) s))

/-- Dispatch (R100, R101, R102): the checks of a command word in R100's order; the first that fails is the one refusal and
the only effect; a word that passes all is an instruction of the table and is performed, without a refusal. The refusals are
numbered as in R33 and 60_exceptions.md R201. -/
def Obligations.DispatchChecksInOrder : Prop :=
  (RefusalCode.none.code = 0#4 ∧ RefusalCode.reservedOpcode.code = 1#4 ∧ RefusalCode.reservedBits.code = 2#4 ∧
    RefusalCode.busy.code = 3#4 ∧ RefusalCode.badFunction.code = 4#4 ∧ RefusalCode.badAddress.code = 5#4) ∧
  ∀ (w : Word) (s : State),
    if w.toNat % 16 = 0 ∨ 8 ≤ w.toNat % 16 then RefusedWith .reservedOpcode s (command w s)
    else if (w.toNat % 16 ∈ [1, 4, 5, 6, 7] ∧ w.toNat / 16 ≠ 0) ∨ (w.toNat % 16 = 2 ∧ w.toNat / 16 % 16 ≠ 0) ∨
        (w.toNat % 16 = 3 ∧ w.toNat / 512 ≠ 0) then RefusedWith .reservedBits s (command w s)
    else if s.busy = true ∧ w.toNat % 16 ∈ [3, 4, 5, 6] then RefusedWith .busy s (command w s)
    else if w.toNat % 16 = 3 ∧ w.toNat / 16 % 16 ∉ [1, 2, 3, 4] then RefusedWith .badFunction s (command w s)
    else if w.toNat % 16 = 3 ∧
        ((w.toNat / 16 % 16 ∈ [1, 2] ∧
          s.encSub ∉ [0x00#8, 0x01#8, 0x02#8, 0x03#8, 0x04#8, 0x05#8, 0x27#8, 0x28#8]) ∨
         (w.toNat / 16 % 16 = 3 ∧
          s.encSub ∉ [0x01#8, 0x02#8, 0x03#8, 0x04#8, 0x07#8, 0x08#8, 0x09#8, 0x0A#8, 0x0B#8])) then
      RefusedWith .badAddress s (command w s)
    else ∃ i t, decodeCommand w = .ok i ∧ encode i = .command w ∧ command w s = exec i s ∧ exec i s = .next t ∧
      (w.toNat % 16 ≠ 7 → t.cmdErrCode = s.cmdErrCode ∧ t.cmdErr = s.cmdErr)

/-! ## Host accesses -/

/-- Register writes (10_state.md R21, R22), each at the register's index of R21: a read-write register stores its used bits,
TX_LEN and RX_LEN only while idle and with a BUSY refusal otherwise; a write to a read-only register or view is ignored. -/
def Obligations.RegisterWritesStoreUsedBits : Prop :=
  ∀ (h : Nat) (v : Word) (s : State), h < Config.nHosts →
    (∀ p ∈ [(0x04#5, Reg.encAddr, 0xFFFF#16), (0x05#5, .encSub, 0x00FF#16), (0x06#5, .encData, 0x00FF#16)],
      ∃ t, perform (.host h (.writeReg p.1 v)) s = .next t ∧ readReg p.2.1 t = v &&& p.2.2 ∧ OnlyRegs [p.2.1] s t) ∧
    (∃ t, perform (.host h (.writeReg 0x0E v)) s = .next t ∧ readReg .dataIdx t = v &&& 0x00FF#16 ∧
      OnlyRegs [.dataIdx, .dataAt] s t) ∧
    (∀ p ∈ [(0x07#5, Reg.txLen, 0x000F#16), (0x08#5, .rxLen, 0x01FF#16)],
      (s.busy = true → RefusedWith .busy s (perform (.host h (.writeReg p.1 v)) s)) ∧
      (s.busy = false → ∃ t, perform (.host h (.writeReg p.1 v)) s = .next t ∧ readReg p.2.1 t = v &&& p.2.2 ∧
        OnlyRegs [p.2.1] s t)) ∧
    (∀ i ∈ [0x01#5, 0x02#5, 0x03#5, 0x09#5, 0x0A#5, 0x0B#5, 0x0C#5, 0x0D#5, 0x0F#5, 0x10#5, 0x11#5, 0x12#5, 0x13#5],
      perform (.host h (.writeReg i v)) s = .next s)

/-- Register reads (10_state.md R21 to R23, 20_memory.md R65): at each index of R21 host `h` gets the value of the register
of that index, zero outside the bits it uses, and the block does not change; CMD reads 0. That the value is appended to the
trace `hostReads` is the model's choice (log 6). -/
def Obligations.RegisterReadsAreZeroExtended : Prop :=
  ∀ (h : Nat) (s : State), h < Config.nHosts →
    (∀ p ∈ [(0x00#5, Reg.cmd), (0x01#5, .status), (0x02#5, .cmdErr), (0x03#5, .crc), (0x04#5, .encAddr), (0x05#5, .encSub),
        (0x06#5, .encData), (0x07#5, .txLen), (0x08#5, .rxLen), (0x09#5, .rxExp), (0x0A#5, .rxAddr), (0x0B#5, .rxFn),
        (0x0C#5, .rxSub), (0x0D#5, .rxDlen), (0x0E#5, .dataIdx), (0x0F#5, .dataAt), (0x10#5, .rxCrcCalc),
        (0x11#5, .rxCrcRecv), (0x12#5, .fifoCount), (0x13#5, .txIdx)],
      perform (.host h (.readReg p.1)) s = .next { s with hostReads := s.hostReads ++ [(h, readReg p.2 s)] }) ∧
    readReg .cmd s = 0#16 ∧ (readReg .cmdErr s).toNat = s.cmdErrCode.code.toNat ∧ readReg .crc s = s.crc ∧
    readReg .encAddr s = s.encAddr ∧ (readReg .encSub s).toNat = s.encSub.toNat ∧
    (readReg .encData s).toNat = s.encData.toNat ∧ (readReg .txLen s).toNat = s.txLen.toNat ∧
    (readReg .rxLen s).toNat = s.rxLen.toNat ∧ (readReg .rxExp s).toNat = s.rxExp.toNat ∧
    (readReg .dataIdx s).toNat = s.dataIdx.toNat ∧ readReg .rxCrcCalc s = s.rxCrcCalc ∧
    readReg .rxCrcRecv s = s.rxCrcRecv ∧ (s.fifo.length ≤ 65535 → (readReg .fifoCount s).toNat = s.fifo.length) ∧
    (readReg .txIdx s).toNat = s.txIdx.toNat ∧
    (∀ p ∈ [(Reg.status, 0x0FFF#16), (.cmdErr, 0x000F#16), (.encSub, 0x00FF#16), (.encData, 0x00FF#16),
        (.txLen, 0x000F#16), (.rxLen, 0x01FF#16), (.rxExp, 0x01FF#16), (.rxFn, 0x00FF#16), (.rxSub, 0x00FF#16),
        (.rxDlen, 0x00FF#16), (.dataIdx, 0x00FF#16), (.dataAt, 0x00FF#16), (.txIdx, 0x000F#16)],
      readReg p.1 s &&& ~~~p.2 = 0#16)

/-- Reserved slots (10_state.md R56): they read 0, and a write is ignored and is no refusal. That a read is appended to the
trace `hostReads` is the model's choice (log 6). -/
def Obligations.ReservedSlotsReadZero : Prop :=
  ∀ (h : Nat) (i : BitVec 5) (v : Word) (s : State), h < Config.nHosts → 0x14 ≤ i.toNat →
    perform (.host h (.readReg i)) s = .next { s with hostReads := s.hostReads ++ [(h, 0#16)] } ∧
    perform (.host h (.writeReg i v)) s = .next s

/-- Buffer access (20_memory.md R61): a read gives the byte, 0 outside the buffer, and changes nothing; a write while idle
stores inside the buffer and is ignored outside it; a write while busy is refused with BUSY. The model's choices: a read is
appended to the trace `hostReads`, zero-extended to 16 bits (log 6), and a write while busy is refused outside the buffer
too, where R61 also says ignored (log 18). -/
def Obligations.BufferAccessByIndex : Prop :=
  ∀ (h i : Nat) (b : Byte) (s : State), h < Config.nHosts →
    perform (.host h (.readTx i)) s = .next { s with hostReads := s.hostReads ++ [(h, (readTx i s).setWidth 16)] } ∧
    perform (.host h (.readRx i)) s = .next { s with hostReads := s.hostReads ++ [(h, (readRx i s).setWidth 16)] } ∧
    (8 ≤ i → readTx i s = 0#8) ∧ (262 ≤ i → readRx i s = 0#8) ∧
    (s.busy = true → RefusedWith .busy s (perform (.host h (.writeTx i b)) s) ∧
      RefusedWith .busy s (perform (.host h (.writeRx i b)) s)) ∧
    (s.busy = false →
      (∃ t, perform (.host h (.writeTx i b)) s = .next t ∧ (i < 8 → readTx i t = b) ∧
        (∀ j, j ≠ i → readTx j t = readTx j s) ∧ (8 ≤ i → t = s) ∧ SameRegs [] s t ∧ SameRx s t ∧ SameLine s t ∧
        SameOutside s t) ∧
      (∃ t, perform (.host h (.writeRx i b)) s = .next t ∧ (i < 262 → readRx i t = b) ∧
        (∀ j, j ≠ i → readRx j t = readRx j s) ∧ (262 ≤ i → t = s) ∧
        SameRegs [.rxAddr, .rxFn, .rxSub, .rxDlen, .dataAt] s t ∧ SameTx s t ∧ SameLine s t ∧ SameOutside s t))

/-- The bits of STATUS (10_state.md R24, R25, R31, with the codes of R26, and of R32 as 60_exceptions.md R200 numbers them). -/
def Obligations.StatusPacksFlags : Prop :=
  (Result.none.code = 0#4 ∧ Result.ok.code = 1#4 ∧ Result.notConnected.code = 2#4 ∧ Result.readTimeout.code = 3#4 ∧
    Result.connectionClosed.code = 4#4 ∧ Result.invalidFrame.code = 5#4 ∧ Result.unsupportedFunction.code = 6#4 ∧
    Result.badLength.code = 7#4) ∧
  ∀ s : State,
    ((statusWord s).getLsbD 0 = true ↔ s.phase ≠ .idle) ∧ (statusWord s).extractLsb' 1 2 = s.phase.code ∧
    (statusWord s).getLsbD 3 = s.done ∧ (statusWord s).getLsbD 4 = s.valid ∧ (statusWord s).getLsbD 5 = s.cmdErr ∧
    (statusWord s).getLsbD 6 = s.rxOvf ∧ (statusWord s).getLsbD 7 = s.linkOpen ∧
    (statusWord s).extractLsb' 8 4 = s.result.code ∧ (statusWord s).extractLsb' 12 4 = 0#4

/-! ## Assembler -/

/-- `SEND` (30_encoding.md R106): from an idle block with the link open, a SEND of a legal READ, WRITE or CONTROL leaves the
request in TxBuf (the low bytes of `sub` and `data`, as ENC_SUB and ENC_DATA store them), the transmit phase begun with its
reply length, and the host has read STATUS once (WAIT's first read, log 15; the trace of reads is log 6). -/
def Obligations.SendStartsTransaction : Prop :=
  ∀ (fn : FnCode) (addr sub : Word) (data : Option Word) (pl : List Byte) (h : Nat) (more : List Event)
    (s : State), fn ≠ .request → addrOK fn (sub.setWidth 8) = true → h < Config.nHosts → s.busy = false →
    s.linkOpen = true →
    pl = (match fn, data with
      | .read, none => [0x01#8]
      | _, none => []
      | _, some d => [d.setWidth 8]) →
    s.agenda = programEvents h [.send fn addr sub data] ++ more →
    ∃ t, run (if data = none then 5 else 6) s = .next t ∧ t.phase = .tx ∧ t.txIdx = 0 ∧ t.rxLen = 0 ∧
      prefixBytes t.txBuf t.txLen.toNat =
        encodeFrame { addr := addr, fn := fn.code, sub := sub.setWidth 8, payload := pl } ∧
      t.rxExp.toNat = (match fn with
        | .read => 7 + (pl.getD 0 0).toNat
        | .write => 8
        | .control => 7 + pl.length
        | .request => 0) ∧
      t.hostReads = s.hostReads ++ [(h, statusWord t)] ∧ t.wireOut = s.wireOut ∧ t.agenda = more

/-- `CHECK` of an encoded frame (30_encoding.md R106; 43_decode.md R141, R142, R150 to R154): from an idle block it leaves
VALID set and every field of the frame readable through the views. -/
def Obligations.CheckOfEncodedFrameIsValid : Prop :=
  ∀ (f : Frame) (h : Nat) (more : List Event) (s : State), f.wf = true → h < Config.nHosts → s.busy = false →
    s.agenda = programEvents h [.checkFrame (encodeFrame f)] ++ more →
    ∃ t, run (9 + f.payload.length) s = .next t ∧ t.valid = true ∧ t.rxCrcCalc = t.rxCrcRecv ∧
      readReg .rxAddr t = f.addr ∧ readReg .rxFn t = f.fn.setWidth 16 ∧ readReg .rxSub t = f.sub.setWidth 16 ∧
      (∀ k < f.payload.length, readRx (5 + k) t = f.payload.getD k 0) ∧ t.agenda = more

/-! ## Steps -/

/-- A step runs the decoded instruction (00_scope.md R6, 10_state.md R23): when the next event is a host's write of a word to
CMD that decodes to an instruction, the step is its meaning at the state with that event taken off the agenda; and an
instruction placed by withFetchWord is the one the next step runs (the placing is the model's choice, log 7). -/
def Obligations.StepRunsDecodedInstruction : Prop :=
  (∀ (s : State) (h : Nat) (w : Word) (i : Instr) (rest : List Event), h < Config.nHosts →
    s.agenda = .host h (.writeReg 0 w) :: rest → decodeCommand w = .ok i →
    step s = exec i { s with agenda := rest }) ∧
  (∀ (s : State) (w : Word) (i : Instr), decodeCommand w = .ok i → step (s.withFetchWord 16 w.toNat) = exec i s) ∧
  (∀ (s : State) (fn : FnCode), step (s.withFetchWord 8 fn.code.toNat) =
    exec (frameInstr fn) (loadRequest (zeroRequest fn.code) s))

/-- No trap (60_exceptions.md R205): whatever the state and the next event, a step answers a next state. -/
def Obligations.StepNeverStops : Prop :=
  ∀ s : State, Answer.Safe (step s)

/-! ## Reset -/

/-- Reset (70_reset_and_hazards.md R230): in any state, every register and flag takes its reset value and the FIFO is empty;
the link and the wire trace are not changed. Of the buffers, drawn freely, nothing is said. -/
def Obligations.ResetSetsResetValues : Prop :=
  ∀ s : State, ∃ t, perform .reset s = .next t ∧ statusWord t = statusWord s &&& 0x0080#16 ∧ readReg .crc t = 0xFFFF#16 ∧
    (∀ r ∈ [Reg.cmdErr, .encAddr, .encSub, .encData, .txLen, .rxLen, .rxExp, .dataIdx, .rxCrcCalc, .rxCrcRecv,
        .fifoCount, .txIdx], readReg r t = 0#16) ∧
    t.fifo = [] ∧ t.linkOpen = s.linkOpen ∧ t.wireOut = s.wireOut

/-- The state after power-on (R230, R231) has the same values: idle, no pending result, an empty FIFO, CRC 0xFFFF, every
other register 0. Of the buffers and the link nothing is said. -/
def Obligations.PowerOnHasResetValues : Prop :=
  State.reset.phase = .idle ∧ statusWord State.reset &&& 0xFF7F#16 = 0#16 ∧ readReg .crc State.reset = 0xFFFF#16 ∧
    (∀ r ∈ [Reg.cmdErr, .encAddr, .encSub, .encData, .txLen, .rxLen, .rxExp, .dataIdx, .rxCrcCalc, .rxCrcRecv,
        .fifoCount, .txIdx], readReg r State.reset = 0#16) ∧
    State.reset.fifo = []

/-! ## Invariants and whole-machine rules -/

/-- The invariants hold after power-on (10_state.md R58). -/
def Obligations.PowerOnMeetsInv : Prop := State.reset.Inv

/-- Every step keeps the invariants (10_state.md R58; strengthened as log 14 says). -/
def Obligations.StepKeepsInv : Prop :=
  ∀ s t : State, s.Inv → step s = .next t → t.Inv

/-- After power-on no outcome is latched (60_exceptions.md R200, R201; 70_reset_and_hazards.md R231), so the latched outcomes
agree. -/
def Obligations.PowerOnOutcomesAgree : Prop :=
  State.reset.OutcomesAgree ∧ State.reset.done = false ∧ State.reset.result = .none ∧ State.reset.cmdErr = false ∧
    State.reset.cmdErrCode = .none

/-- Every step keeps the latched outcomes in agreement (R200, R201; 70_reset_and_hazards.md R241). -/
def Obligations.StepKeepsOutcomesAgree : Prop :=
  ∀ s t : State, s.OutcomesAgree → step s = .next t → t.OutcomesAgree

/-- No interleaving on the wire (44_transaction.md R174): while idle nothing is appended; while busy, whatever step comes but
a reset, the request is unchanged and the bytes on the wire since its start stay the first TX_IDX bytes of the request. -/
def Obligations.WireCarriesOneRequestAtATime : Prop :=
  ∀ s t : State, s.Inv → step s = .next t →
    (s.busy = false → t.wireOut = s.wireOut) ∧
    (∀ before : List Byte, s.busy = true → nextEvent s ≠ .reset → SentSoFar before s →
      SentSoFar before t ∧ t.txBuf = s.txBuf ∧ t.txLen = s.txLen)

/-- The wire trace only grows, and only by the engine's transmit step (10_state.md R44, R58; 44_transaction.md R171). -/
def Obligations.OnlyEngineAppendsToWire : Prop :=
  ∀ s t : State, step s = .next t → t.wireOut = s.wireOut ∨
    (nextEvent s = .engine ∧ s.phase = .tx ∧ s.linkOpen = true ∧ t.wireOut = s.wireOut ++ [readTx s.txIdx.toNat s])

/-- What changes PHASE (10_state.md R26): an accepted XACT from IDLE to TX (44_transaction.md R165), the engine's last transmit
step from TX to RX (R171), and from TX or RX to IDLE the `finish` of an engine step (R171, R172) or of a timeout (R177), which
sets DONE and the result, or a reset (70_reset_and_hazards.md R230). -/
def Obligations.PhaseChangesOnlyByRule : Prop :=
  (Phase.idle.code = 0#2 ∧ Phase.tx.code = 1#2 ∧ Phase.rx.code = 2#2) ∧
  ∀ s t : State, step s = .next t → t.phase ≠ s.phase →
    (s.phase = .idle ∧ t.phase = .tx ∧ s.linkOpen = true ∧ (s.txLen = 7 ∨ s.txLen = 8) ∧
      ∃ h, nextEvent s = .host h (.writeReg 0 0x0005)) ∨
    (s.phase = .tx ∧ t.phase = .rx ∧ nextEvent s = .engine ∧ s.linkOpen = true ∧ s.txIdx + 1 = s.txLen) ∨
    (s.phase = .tx ∧ t.phase = .idle ∧ nextEvent s = .engine ∧ t.done = true ∧ t.result = .connectionClosed) ∨
    (s.phase = .rx ∧ t.phase = .idle ∧ nextEvent s = .engine ∧ t.done = true ∧
      t.result ∈ [Result.ok, .invalidFrame, .connectionClosed]) ∨
    (s.phase = .rx ∧ t.phase = .idle ∧ nextEvent s = .timeout ∧ t.done = true ∧ t.result = .readTimeout) ∨
    (t.phase = .idle ∧ nextEvent s = .reset)

/-- What changes DONE (10_state.md R27): it is set only by the end of a transaction (the engine, a timeout, or an XACT that
fails at once), and cleared only by XACT, CLEAR and reset. -/
def Obligations.DoneChangesOnlyByRule : Prop :=
  ∀ s t : State, step s = .next t →
    (s.done = false → t.done = true →
      (nextEvent s = .engine ∨ nextEvent s = .timeout ∨ ∃ h, nextEvent s = .host h (.writeReg 0 0x0005)) ∧
      t.phase = .idle) ∧
    (s.done = true → t.done = false →
      nextEvent s = .reset ∨ (∃ h, nextEvent s = .host h (.writeReg 0 0x0005)) ∨
      (∃ h, nextEvent s = .host h (.writeReg 0 0x0007)))

/-- CMD_ERR and RX_OVF are sticky (10_state.md R29, R30): only CLEAR and reset clear them. -/
def Obligations.StickyFlagsStaySet : Prop :=
  ∀ s t : State, step s = .next t → nextEvent s ≠ .reset → (∀ h, nextEvent s ≠ .host h (.writeReg 0 0x0007)) →
    (s.cmdErr = true → t.cmdErr = true) ∧ (s.rxOvf = true → t.rxOvf = true)

/-- The CRC accumulator (10_state.md R34, 70_reset_and_hazards.md R246): no step but a command word with opcode 1 or 2 or a
reset changes it; in particular no transaction, ENCODE or VALIDATE does. -/
def Obligations.OnlyCrcCommandsWriteCrc : Prop :=
  ∀ s t : State, step s = .next t → nextEvent s ≠ .reset →
    (∀ h w, nextEvent s = .host h (.writeReg 0 w) → w.toNat % 16 ≠ 1 ∧ w.toNat % 16 ≠ 2) → t.crc = s.crc
end

