-- ==== Sys2Proof/Laws/Assembler.lean ====
section
/-! SUPPORT. Laws/Assembler.lean: the reader of the assembly language gives statements of the language only (30_encoding.md
R105, R106). -/

namespace Sys2Proof.Machine

theorem readLoad_length {ops : List (List Char)} {bs : List Byte} (h : readLoad ops = some bs) : bs.length < 2 ^ 16 := by
  unfold readLoad at h
  cases hb : readBytes ops with
  | none => simp [hb] at h
  | some cs =>
    simp only [hb, Option.bind_eq_bind, Option.bind_some] at h
    split at h
    · cases h; assumption
    · cases h

theorem plainStatements_wf : ∀ p ∈ plainStatements, p.2.wf = true := by decide

theorem readWithOperands_wf {head : String} {ops : List (List Char)} {st : Stmt}
    (h : readWithOperands head ops = some (some st)) : st.wf = true := by
  unfold readWithOperands at h
  split_ifs at h <;> simp only [Option.some.injEq] at h
  all_goals try split at h
  all_goals simp only [Option.map_eq_some_iff, Option.bind_eq_bind, Option.bind_eq_some_iff, Option.some.injEq,
    reduceCtorEq] at h
  all_goals first
    | (obtain ⟨bs, hb, rfl⟩ := h; exact decide_eq_true (readLoad_length hb))
    | (obtain ⟨_, _, rfl⟩ := h; rfl)
    | (obtain ⟨_, _, _, _, rfl⟩ := h; rfl)
    | (obtain ⟨_, _, _, _, _, _, rfl⟩ := h; rfl)
    | (obtain ⟨_, _, _, _, _, _, _, _, rfl⟩ := h; rfl)

/-- Whatever line the reader accepts is a statement of the language. -/
theorem assembleLine_wf {line : List Char} {st : Stmt} (h : assembleLine line = .ok st) : st.wf = true := by
  unfold assembleLine at h
  dsimp only at h
  split at h
  · rename_i p hp
    split at h <;> cases h
    exact plainStatements_wf p (List.mem_of_find?_eq_some hp)
  · split at h <;> cases h
    rename_i hs
    exact readWithOperands_wf hs

end Sys2Proof.Machine
end

