-- ==== Sys2Proof/Laws/State.lean ====
section
/-! SUPPORT. Laws/State.lean: one lemma per field per update of the state, so that no proof unfolds a record update. -/

namespace Sys2Proof.Machine

/-! ## `refuse` (30_encoding.md R100) -/

section
variable (c : RefusalCode) (s : State)

@[simp] theorem refuse_encAddr : (refuse c s).encAddr = s.encAddr := rfl
@[simp] theorem refuse_encSub : (refuse c s).encSub = s.encSub := rfl
@[simp] theorem refuse_encData : (refuse c s).encData = s.encData := rfl
@[simp] theorem refuse_dataIdx : (refuse c s).dataIdx = s.dataIdx := rfl
@[simp] theorem refuse_txLen : (refuse c s).txLen = s.txLen := rfl
@[simp] theorem refuse_rxLen : (refuse c s).rxLen = s.rxLen := rfl
@[simp] theorem refuse_rxExp : (refuse c s).rxExp = s.rxExp := rfl
@[simp] theorem refuse_txIdx : (refuse c s).txIdx = s.txIdx := rfl
@[simp] theorem refuse_crc : (refuse c s).crc = s.crc := rfl
@[simp] theorem refuse_rxCrcCalc : (refuse c s).rxCrcCalc = s.rxCrcCalc := rfl
@[simp] theorem refuse_rxCrcRecv : (refuse c s).rxCrcRecv = s.rxCrcRecv := rfl
@[simp] theorem refuse_cmdErrCode : (refuse c s).cmdErrCode = c := rfl
@[simp] theorem refuse_result : (refuse c s).result = s.result := rfl
@[simp] theorem refuse_phase : (refuse c s).phase = s.phase := rfl
@[simp] theorem refuse_done : (refuse c s).done = s.done := rfl
@[simp] theorem refuse_valid : (refuse c s).valid = s.valid := rfl
@[simp] theorem refuse_cmdErr : (refuse c s).cmdErr = true := rfl
@[simp] theorem refuse_rxOvf : (refuse c s).rxOvf = s.rxOvf := rfl
@[simp] theorem refuse_txBuf : (refuse c s).txBuf = s.txBuf := rfl
@[simp] theorem refuse_rxBuf : (refuse c s).rxBuf = s.rxBuf := rfl
@[simp] theorem refuse_fifo : (refuse c s).fifo = s.fifo := rfl
@[simp] theorem refuse_linkOpen : (refuse c s).linkOpen = s.linkOpen := rfl
@[simp] theorem refuse_wireOut : (refuse c s).wireOut = s.wireOut := rfl
@[simp] theorem refuse_agenda : (refuse c s).agenda = s.agenda := rfl
@[simp] theorem refuse_draws : (refuse c s).draws = s.draws := rfl
@[simp] theorem refuse_hostReads : (refuse c s).hostReads = s.hostReads := rfl

end

/-! ## `finish` (44_transaction.md R170) -/

section
variable (r : Result) (s : State)

@[simp] theorem finish_encAddr : (finish r s).encAddr = s.encAddr := rfl
@[simp] theorem finish_encSub : (finish r s).encSub = s.encSub := rfl
@[simp] theorem finish_encData : (finish r s).encData = s.encData := rfl
@[simp] theorem finish_dataIdx : (finish r s).dataIdx = s.dataIdx := rfl
@[simp] theorem finish_txLen : (finish r s).txLen = s.txLen := rfl
@[simp] theorem finish_rxLen : (finish r s).rxLen = s.rxLen := rfl
@[simp] theorem finish_rxExp : (finish r s).rxExp = s.rxExp := rfl
@[simp] theorem finish_txIdx : (finish r s).txIdx = s.txIdx := rfl
@[simp] theorem finish_crc : (finish r s).crc = s.crc := rfl
@[simp] theorem finish_rxCrcCalc : (finish r s).rxCrcCalc = s.rxCrcCalc := rfl
@[simp] theorem finish_rxCrcRecv : (finish r s).rxCrcRecv = s.rxCrcRecv := rfl
@[simp] theorem finish_cmdErrCode : (finish r s).cmdErrCode = s.cmdErrCode := rfl
@[simp] theorem finish_result : (finish r s).result = r := rfl
@[simp] theorem finish_phase : (finish r s).phase = .idle := rfl
@[simp] theorem finish_done : (finish r s).done = true := rfl
@[simp] theorem finish_valid : (finish r s).valid = s.valid := rfl
@[simp] theorem finish_cmdErr : (finish r s).cmdErr = s.cmdErr := rfl
@[simp] theorem finish_rxOvf : (finish r s).rxOvf = s.rxOvf := rfl
@[simp] theorem finish_txBuf : (finish r s).txBuf = s.txBuf := rfl
@[simp] theorem finish_rxBuf : (finish r s).rxBuf = s.rxBuf := rfl
@[simp] theorem finish_fifo : (finish r s).fifo = s.fifo := rfl
@[simp] theorem finish_linkOpen : (finish r s).linkOpen = s.linkOpen := rfl
@[simp] theorem finish_wireOut : (finish r s).wireOut = s.wireOut := rfl
@[simp] theorem finish_agenda : (finish r s).agenda = s.agenda := rfl
@[simp] theorem finish_draws : (finish r s).draws = s.draws := rfl
@[simp] theorem finish_hostReads : (finish r s).hostReads = s.hostReads := rfl

end

/-! ## what XACT clears (R165) -/

section
variable (s : State)

@[simp] theorem clearOutcome_encAddr : (clearOutcome s).encAddr = s.encAddr := rfl
@[simp] theorem clearOutcome_encSub : (clearOutcome s).encSub = s.encSub := rfl
@[simp] theorem clearOutcome_encData : (clearOutcome s).encData = s.encData := rfl
@[simp] theorem clearOutcome_dataIdx : (clearOutcome s).dataIdx = s.dataIdx := rfl
@[simp] theorem clearOutcome_txLen : (clearOutcome s).txLen = s.txLen := rfl
@[simp] theorem clearOutcome_rxLen : (clearOutcome s).rxLen = s.rxLen := rfl
@[simp] theorem clearOutcome_rxExp : (clearOutcome s).rxExp = s.rxExp := rfl
@[simp] theorem clearOutcome_txIdx : (clearOutcome s).txIdx = s.txIdx := rfl
@[simp] theorem clearOutcome_crc : (clearOutcome s).crc = s.crc := rfl
@[simp] theorem clearOutcome_rxCrcCalc : (clearOutcome s).rxCrcCalc = s.rxCrcCalc := rfl
@[simp] theorem clearOutcome_rxCrcRecv : (clearOutcome s).rxCrcRecv = s.rxCrcRecv := rfl
@[simp] theorem clearOutcome_cmdErrCode : (clearOutcome s).cmdErrCode = s.cmdErrCode := rfl
@[simp] theorem clearOutcome_result : (clearOutcome s).result = .none := rfl
@[simp] theorem clearOutcome_phase : (clearOutcome s).phase = s.phase := rfl
@[simp] theorem clearOutcome_done : (clearOutcome s).done = false := rfl
@[simp] theorem clearOutcome_valid : (clearOutcome s).valid = false := rfl
@[simp] theorem clearOutcome_cmdErr : (clearOutcome s).cmdErr = s.cmdErr := rfl
@[simp] theorem clearOutcome_rxOvf : (clearOutcome s).rxOvf = s.rxOvf := rfl
@[simp] theorem clearOutcome_txBuf : (clearOutcome s).txBuf = s.txBuf := rfl
@[simp] theorem clearOutcome_rxBuf : (clearOutcome s).rxBuf = s.rxBuf := rfl
@[simp] theorem clearOutcome_fifo : (clearOutcome s).fifo = s.fifo := rfl
@[simp] theorem clearOutcome_linkOpen : (clearOutcome s).linkOpen = s.linkOpen := rfl
@[simp] theorem clearOutcome_wireOut : (clearOutcome s).wireOut = s.wireOut := rfl
@[simp] theorem clearOutcome_agenda : (clearOutcome s).agenda = s.agenda := rfl
@[simp] theorem clearOutcome_draws : (clearOutcome s).draws = s.draws := rfl
@[simp] theorem clearOutcome_hostReads : (clearOutcome s).hostReads = s.hostReads := rfl

end

/-! ## the start of transmission (R165) -/

section
variable (e : BitVec 9) (s : State)

@[simp] theorem beginTx_encAddr : (beginTx e s).encAddr = s.encAddr := rfl
@[simp] theorem beginTx_encSub : (beginTx e s).encSub = s.encSub := rfl
@[simp] theorem beginTx_encData : (beginTx e s).encData = s.encData := rfl
@[simp] theorem beginTx_dataIdx : (beginTx e s).dataIdx = s.dataIdx := rfl
@[simp] theorem beginTx_txLen : (beginTx e s).txLen = s.txLen := rfl
@[simp] theorem beginTx_rxLen : (beginTx e s).rxLen = 0 := rfl
@[simp] theorem beginTx_rxExp : (beginTx e s).rxExp = e := rfl
@[simp] theorem beginTx_txIdx : (beginTx e s).txIdx = 0 := rfl
@[simp] theorem beginTx_crc : (beginTx e s).crc = s.crc := rfl
@[simp] theorem beginTx_rxCrcCalc : (beginTx e s).rxCrcCalc = s.rxCrcCalc := rfl
@[simp] theorem beginTx_rxCrcRecv : (beginTx e s).rxCrcRecv = s.rxCrcRecv := rfl
@[simp] theorem beginTx_cmdErrCode : (beginTx e s).cmdErrCode = s.cmdErrCode := rfl
@[simp] theorem beginTx_result : (beginTx e s).result = s.result := rfl
@[simp] theorem beginTx_phase : (beginTx e s).phase = .tx := rfl
@[simp] theorem beginTx_done : (beginTx e s).done = s.done := rfl
@[simp] theorem beginTx_valid : (beginTx e s).valid = s.valid := rfl
@[simp] theorem beginTx_cmdErr : (beginTx e s).cmdErr = s.cmdErr := rfl
@[simp] theorem beginTx_rxOvf : (beginTx e s).rxOvf = s.rxOvf := rfl
@[simp] theorem beginTx_txBuf : (beginTx e s).txBuf = s.txBuf := rfl
@[simp] theorem beginTx_rxBuf : (beginTx e s).rxBuf = s.rxBuf := rfl
@[simp] theorem beginTx_fifo : (beginTx e s).fifo = s.fifo := rfl
@[simp] theorem beginTx_linkOpen : (beginTx e s).linkOpen = s.linkOpen := rfl
@[simp] theorem beginTx_wireOut : (beginTx e s).wireOut = s.wireOut := rfl
@[simp] theorem beginTx_agenda : (beginTx e s).agenda = s.agenda := rfl
@[simp] theorem beginTx_draws : (beginTx e s).draws = s.draws := rfl
@[simp] theorem beginTx_hostReads : (beginTx e s).hostReads = s.hostReads := rfl

end

/-! ## sending a byte (R171) -/

section
variable (s : State)

@[simp] theorem sendByte_encAddr : (sendByte s).encAddr = s.encAddr := rfl
@[simp] theorem sendByte_encSub : (sendByte s).encSub = s.encSub := rfl
@[simp] theorem sendByte_encData : (sendByte s).encData = s.encData := rfl
@[simp] theorem sendByte_dataIdx : (sendByte s).dataIdx = s.dataIdx := rfl
@[simp] theorem sendByte_txLen : (sendByte s).txLen = s.txLen := rfl
@[simp] theorem sendByte_rxLen : (sendByte s).rxLen = s.rxLen := rfl
@[simp] theorem sendByte_rxExp : (sendByte s).rxExp = s.rxExp := rfl
@[simp] theorem sendByte_txIdx : (sendByte s).txIdx = s.txIdx + 1 := rfl
@[simp] theorem sendByte_crc : (sendByte s).crc = s.crc := rfl
@[simp] theorem sendByte_rxCrcCalc : (sendByte s).rxCrcCalc = s.rxCrcCalc := rfl
@[simp] theorem sendByte_rxCrcRecv : (sendByte s).rxCrcRecv = s.rxCrcRecv := rfl
@[simp] theorem sendByte_cmdErrCode : (sendByte s).cmdErrCode = s.cmdErrCode := rfl
@[simp] theorem sendByte_result : (sendByte s).result = s.result := rfl
@[simp] theorem sendByte_phase : (sendByte s).phase = s.phase := rfl
@[simp] theorem sendByte_done : (sendByte s).done = s.done := rfl
@[simp] theorem sendByte_valid : (sendByte s).valid = s.valid := rfl
@[simp] theorem sendByte_cmdErr : (sendByte s).cmdErr = s.cmdErr := rfl
@[simp] theorem sendByte_rxOvf : (sendByte s).rxOvf = s.rxOvf := rfl
@[simp] theorem sendByte_txBuf : (sendByte s).txBuf = s.txBuf := rfl
@[simp] theorem sendByte_rxBuf : (sendByte s).rxBuf = s.rxBuf := rfl
@[simp] theorem sendByte_fifo : (sendByte s).fifo = s.fifo := rfl
@[simp] theorem sendByte_linkOpen : (sendByte s).linkOpen = s.linkOpen := rfl
@[simp] theorem sendByte_wireOut : (sendByte s).wireOut = s.wireOut ++ [readTx s.txIdx.toNat s] := rfl
@[simp] theorem sendByte_agenda : (sendByte s).agenda = s.agenda := rfl
@[simp] theorem sendByte_draws : (sendByte s).draws = s.draws := rfl
@[simp] theorem sendByte_hostReads : (sendByte s).hostReads = s.hostReads := rfl

end

/-! ## receiving a byte (R172) -/

section
variable (b : Byte) (rest : List Byte) (s : State)

@[simp] theorem receiveByte_encAddr : (receiveByte b rest s).encAddr = s.encAddr := rfl
@[simp] theorem receiveByte_encSub : (receiveByte b rest s).encSub = s.encSub := rfl
@[simp] theorem receiveByte_encData : (receiveByte b rest s).encData = s.encData := rfl
@[simp] theorem receiveByte_dataIdx : (receiveByte b rest s).dataIdx = s.dataIdx := rfl
@[simp] theorem receiveByte_txLen : (receiveByte b rest s).txLen = s.txLen := rfl
@[simp] theorem receiveByte_rxLen : (receiveByte b rest s).rxLen = s.rxLen + 1 := rfl
@[simp] theorem receiveByte_rxExp : (receiveByte b rest s).rxExp = s.rxExp := rfl
@[simp] theorem receiveByte_txIdx : (receiveByte b rest s).txIdx = s.txIdx := rfl
@[simp] theorem receiveByte_crc : (receiveByte b rest s).crc = s.crc := rfl
@[simp] theorem receiveByte_rxCrcCalc : (receiveByte b rest s).rxCrcCalc = s.rxCrcCalc := rfl
@[simp] theorem receiveByte_rxCrcRecv : (receiveByte b rest s).rxCrcRecv = s.rxCrcRecv := rfl
@[simp] theorem receiveByte_cmdErrCode : (receiveByte b rest s).cmdErrCode = s.cmdErrCode := rfl
@[simp] theorem receiveByte_result : (receiveByte b rest s).result = s.result := rfl
@[simp] theorem receiveByte_phase : (receiveByte b rest s).phase = s.phase := rfl
@[simp] theorem receiveByte_done : (receiveByte b rest s).done = s.done := rfl
@[simp] theorem receiveByte_valid : (receiveByte b rest s).valid = s.valid := rfl
@[simp] theorem receiveByte_cmdErr : (receiveByte b rest s).cmdErr = s.cmdErr := rfl
@[simp] theorem receiveByte_rxOvf : (receiveByte b rest s).rxOvf = s.rxOvf := rfl
@[simp] theorem receiveByte_txBuf : (receiveByte b rest s).txBuf = s.txBuf := rfl
@[simp] theorem receiveByte_rxBuf : (receiveByte b rest s).rxBuf = writeBuf s.rxBuf s.rxLen.toNat b := rfl
@[simp] theorem receiveByte_fifo : (receiveByte b rest s).fifo = rest := rfl
@[simp] theorem receiveByte_linkOpen : (receiveByte b rest s).linkOpen = s.linkOpen := rfl
@[simp] theorem receiveByte_wireOut : (receiveByte b rest s).wireOut = s.wireOut := rfl
@[simp] theorem receiveByte_agenda : (receiveByte b rest s).agenda = s.agenda := rfl
@[simp] theorem receiveByte_draws : (receiveByte b rest s).draws = s.draws := rfl
@[simp] theorem receiveByte_hostReads : (receiveByte b rest s).hostReads = s.hostReads := rfl

end

/-! ## latching a validation (R142, R172) -/

section
variable (c : CheckResult) (s : State)

@[simp] theorem latchCheck_encAddr : (latchCheck c s).encAddr = s.encAddr := rfl
@[simp] theorem latchCheck_encSub : (latchCheck c s).encSub = s.encSub := rfl
@[simp] theorem latchCheck_encData : (latchCheck c s).encData = s.encData := rfl
@[simp] theorem latchCheck_dataIdx : (latchCheck c s).dataIdx = s.dataIdx := rfl
@[simp] theorem latchCheck_txLen : (latchCheck c s).txLen = s.txLen := rfl
@[simp] theorem latchCheck_rxLen : (latchCheck c s).rxLen = s.rxLen := rfl
@[simp] theorem latchCheck_rxExp : (latchCheck c s).rxExp = s.rxExp := rfl
@[simp] theorem latchCheck_txIdx : (latchCheck c s).txIdx = s.txIdx := rfl
@[simp] theorem latchCheck_crc : (latchCheck c s).crc = s.crc := rfl
@[simp] theorem latchCheck_rxCrcCalc : (latchCheck c s).rxCrcCalc = c.computed := rfl
@[simp] theorem latchCheck_rxCrcRecv : (latchCheck c s).rxCrcRecv = c.received := rfl
@[simp] theorem latchCheck_cmdErrCode : (latchCheck c s).cmdErrCode = s.cmdErrCode := rfl
@[simp] theorem latchCheck_result : (latchCheck c s).result = s.result := rfl
@[simp] theorem latchCheck_phase : (latchCheck c s).phase = s.phase := rfl
@[simp] theorem latchCheck_done : (latchCheck c s).done = s.done := rfl
@[simp] theorem latchCheck_valid : (latchCheck c s).valid = c.ok := rfl
@[simp] theorem latchCheck_cmdErr : (latchCheck c s).cmdErr = s.cmdErr := rfl
@[simp] theorem latchCheck_rxOvf : (latchCheck c s).rxOvf = s.rxOvf := rfl
@[simp] theorem latchCheck_txBuf : (latchCheck c s).txBuf = s.txBuf := rfl
@[simp] theorem latchCheck_rxBuf : (latchCheck c s).rxBuf = s.rxBuf := rfl
@[simp] theorem latchCheck_fifo : (latchCheck c s).fifo = s.fifo := rfl
@[simp] theorem latchCheck_linkOpen : (latchCheck c s).linkOpen = s.linkOpen := rfl
@[simp] theorem latchCheck_wireOut : (latchCheck c s).wireOut = s.wireOut := rfl
@[simp] theorem latchCheck_agenda : (latchCheck c s).agenda = s.agenda := rfl
@[simp] theorem latchCheck_draws : (latchCheck c s).draws = s.draws := rfl
@[simp] theorem latchCheck_hostReads : (latchCheck c s).hostReads = s.hostReads := rfl

end

/-! ## loading a request (R124) -/

section
variable (bs : List Byte) (s : State)

@[simp] theorem loadRequest_encAddr : (loadRequest bs s).encAddr = s.encAddr := rfl
@[simp] theorem loadRequest_encSub : (loadRequest bs s).encSub = s.encSub := rfl
@[simp] theorem loadRequest_encData : (loadRequest bs s).encData = s.encData := rfl
@[simp] theorem loadRequest_dataIdx : (loadRequest bs s).dataIdx = s.dataIdx := rfl
@[simp] theorem loadRequest_txLen : (loadRequest bs s).txLen = BitVec.ofNat 4 bs.length := rfl
@[simp] theorem loadRequest_rxLen : (loadRequest bs s).rxLen = s.rxLen := rfl
@[simp] theorem loadRequest_rxExp : (loadRequest bs s).rxExp = s.rxExp := rfl
@[simp] theorem loadRequest_txIdx : (loadRequest bs s).txIdx = s.txIdx := rfl
@[simp] theorem loadRequest_crc : (loadRequest bs s).crc = s.crc := rfl
@[simp] theorem loadRequest_rxCrcCalc : (loadRequest bs s).rxCrcCalc = s.rxCrcCalc := rfl
@[simp] theorem loadRequest_rxCrcRecv : (loadRequest bs s).rxCrcRecv = s.rxCrcRecv := rfl
@[simp] theorem loadRequest_cmdErrCode : (loadRequest bs s).cmdErrCode = s.cmdErrCode := rfl
@[simp] theorem loadRequest_result : (loadRequest bs s).result = s.result := rfl
@[simp] theorem loadRequest_phase : (loadRequest bs s).phase = s.phase := rfl
@[simp] theorem loadRequest_done : (loadRequest bs s).done = s.done := rfl
@[simp] theorem loadRequest_valid : (loadRequest bs s).valid = s.valid := rfl
@[simp] theorem loadRequest_cmdErr : (loadRequest bs s).cmdErr = s.cmdErr := rfl
@[simp] theorem loadRequest_rxOvf : (loadRequest bs s).rxOvf = s.rxOvf := rfl
@[simp] theorem loadRequest_txBuf : (loadRequest bs s).txBuf = storeBytes s.txBuf 0 bs := rfl
@[simp] theorem loadRequest_rxBuf : (loadRequest bs s).rxBuf = s.rxBuf := rfl
@[simp] theorem loadRequest_fifo : (loadRequest bs s).fifo = s.fifo := rfl
@[simp] theorem loadRequest_linkOpen : (loadRequest bs s).linkOpen = s.linkOpen := rfl
@[simp] theorem loadRequest_wireOut : (loadRequest bs s).wireOut = s.wireOut := rfl
@[simp] theorem loadRequest_agenda : (loadRequest bs s).agenda = s.agenda := rfl
@[simp] theorem loadRequest_draws : (loadRequest bs s).draws = s.draws := rfl
@[simp] theorem loadRequest_hostReads : (loadRequest bs s).hostReads = s.hostReads := rfl

end

/-! ## CLEAR (R190) -/

section
variable (s : State)

@[simp] theorem clearStatus_encAddr : (clearStatus s).encAddr = s.encAddr := rfl
@[simp] theorem clearStatus_encSub : (clearStatus s).encSub = s.encSub := rfl
@[simp] theorem clearStatus_encData : (clearStatus s).encData = s.encData := rfl
@[simp] theorem clearStatus_dataIdx : (clearStatus s).dataIdx = s.dataIdx := rfl
@[simp] theorem clearStatus_txLen : (clearStatus s).txLen = s.txLen := rfl
@[simp] theorem clearStatus_rxLen : (clearStatus s).rxLen = s.rxLen := rfl
@[simp] theorem clearStatus_rxExp : (clearStatus s).rxExp = s.rxExp := rfl
@[simp] theorem clearStatus_txIdx : (clearStatus s).txIdx = s.txIdx := rfl
@[simp] theorem clearStatus_crc : (clearStatus s).crc = s.crc := rfl
@[simp] theorem clearStatus_rxCrcCalc : (clearStatus s).rxCrcCalc = s.rxCrcCalc := rfl
@[simp] theorem clearStatus_rxCrcRecv : (clearStatus s).rxCrcRecv = s.rxCrcRecv := rfl
@[simp] theorem clearStatus_cmdErrCode : (clearStatus s).cmdErrCode = .none := rfl
@[simp] theorem clearStatus_result : (clearStatus s).result = .none := rfl
@[simp] theorem clearStatus_phase : (clearStatus s).phase = s.phase := rfl
@[simp] theorem clearStatus_done : (clearStatus s).done = false := rfl
@[simp] theorem clearStatus_valid : (clearStatus s).valid = s.valid := rfl
@[simp] theorem clearStatus_cmdErr : (clearStatus s).cmdErr = false := rfl
@[simp] theorem clearStatus_rxOvf : (clearStatus s).rxOvf = false := rfl
@[simp] theorem clearStatus_txBuf : (clearStatus s).txBuf = s.txBuf := rfl
@[simp] theorem clearStatus_rxBuf : (clearStatus s).rxBuf = s.rxBuf := rfl
@[simp] theorem clearStatus_fifo : (clearStatus s).fifo = s.fifo := rfl
@[simp] theorem clearStatus_linkOpen : (clearStatus s).linkOpen = s.linkOpen := rfl
@[simp] theorem clearStatus_wireOut : (clearStatus s).wireOut = s.wireOut := rfl
@[simp] theorem clearStatus_agenda : (clearStatus s).agenda = s.agenda := rfl
@[simp] theorem clearStatus_draws : (clearStatus s).draws = s.draws := rfl
@[simp] theorem clearStatus_hostReads : (clearStatus s).hostReads = s.hostReads := rfl

end

/-! ## a host read (20_memory.md R65) -/

section
variable (h : Nat) (v : Word) (s : State)

@[simp] theorem returnRead_encAddr : (returnRead h v s).encAddr = s.encAddr := rfl
@[simp] theorem returnRead_encSub : (returnRead h v s).encSub = s.encSub := rfl
@[simp] theorem returnRead_encData : (returnRead h v s).encData = s.encData := rfl
@[simp] theorem returnRead_dataIdx : (returnRead h v s).dataIdx = s.dataIdx := rfl
@[simp] theorem returnRead_txLen : (returnRead h v s).txLen = s.txLen := rfl
@[simp] theorem returnRead_rxLen : (returnRead h v s).rxLen = s.rxLen := rfl
@[simp] theorem returnRead_rxExp : (returnRead h v s).rxExp = s.rxExp := rfl
@[simp] theorem returnRead_txIdx : (returnRead h v s).txIdx = s.txIdx := rfl
@[simp] theorem returnRead_crc : (returnRead h v s).crc = s.crc := rfl
@[simp] theorem returnRead_rxCrcCalc : (returnRead h v s).rxCrcCalc = s.rxCrcCalc := rfl
@[simp] theorem returnRead_rxCrcRecv : (returnRead h v s).rxCrcRecv = s.rxCrcRecv := rfl
@[simp] theorem returnRead_cmdErrCode : (returnRead h v s).cmdErrCode = s.cmdErrCode := rfl
@[simp] theorem returnRead_result : (returnRead h v s).result = s.result := rfl
@[simp] theorem returnRead_phase : (returnRead h v s).phase = s.phase := rfl
@[simp] theorem returnRead_done : (returnRead h v s).done = s.done := rfl
@[simp] theorem returnRead_valid : (returnRead h v s).valid = s.valid := rfl
@[simp] theorem returnRead_cmdErr : (returnRead h v s).cmdErr = s.cmdErr := rfl
@[simp] theorem returnRead_rxOvf : (returnRead h v s).rxOvf = s.rxOvf := rfl
@[simp] theorem returnRead_txBuf : (returnRead h v s).txBuf = s.txBuf := rfl
@[simp] theorem returnRead_rxBuf : (returnRead h v s).rxBuf = s.rxBuf := rfl
@[simp] theorem returnRead_fifo : (returnRead h v s).fifo = s.fifo := rfl
@[simp] theorem returnRead_linkOpen : (returnRead h v s).linkOpen = s.linkOpen := rfl
@[simp] theorem returnRead_wireOut : (returnRead h v s).wireOut = s.wireOut := rfl
@[simp] theorem returnRead_agenda : (returnRead h v s).agenda = s.agenda := rfl
@[simp] theorem returnRead_draws : (returnRead h v s).draws = s.draws := rfl
@[simp] theorem returnRead_hostReads : (returnRead h v s).hostReads = s.hostReads ++ [(h, v)] := rfl

end

/-! ## the link's changes (R176) -/

section
variable (up : Bool) (s : State)

@[simp] theorem setLink_encAddr : (setLink up s).encAddr = s.encAddr := rfl
@[simp] theorem setLink_encSub : (setLink up s).encSub = s.encSub := rfl
@[simp] theorem setLink_encData : (setLink up s).encData = s.encData := rfl
@[simp] theorem setLink_dataIdx : (setLink up s).dataIdx = s.dataIdx := rfl
@[simp] theorem setLink_txLen : (setLink up s).txLen = s.txLen := rfl
@[simp] theorem setLink_rxLen : (setLink up s).rxLen = s.rxLen := rfl
@[simp] theorem setLink_rxExp : (setLink up s).rxExp = s.rxExp := rfl
@[simp] theorem setLink_txIdx : (setLink up s).txIdx = s.txIdx := rfl
@[simp] theorem setLink_crc : (setLink up s).crc = s.crc := rfl
@[simp] theorem setLink_rxCrcCalc : (setLink up s).rxCrcCalc = s.rxCrcCalc := rfl
@[simp] theorem setLink_rxCrcRecv : (setLink up s).rxCrcRecv = s.rxCrcRecv := rfl
@[simp] theorem setLink_cmdErrCode : (setLink up s).cmdErrCode = s.cmdErrCode := rfl
@[simp] theorem setLink_result : (setLink up s).result = s.result := rfl
@[simp] theorem setLink_phase : (setLink up s).phase = s.phase := rfl
@[simp] theorem setLink_done : (setLink up s).done = s.done := rfl
@[simp] theorem setLink_valid : (setLink up s).valid = s.valid := rfl
@[simp] theorem setLink_cmdErr : (setLink up s).cmdErr = s.cmdErr := rfl
@[simp] theorem setLink_rxOvf : (setLink up s).rxOvf = s.rxOvf := rfl
@[simp] theorem setLink_txBuf : (setLink up s).txBuf = s.txBuf := rfl
@[simp] theorem setLink_rxBuf : (setLink up s).rxBuf = s.rxBuf := rfl
@[simp] theorem setLink_fifo : (setLink up s).fifo = s.fifo := rfl
@[simp] theorem setLink_linkOpen : (setLink up s).linkOpen = up := rfl
@[simp] theorem setLink_wireOut : (setLink up s).wireOut = s.wireOut := rfl
@[simp] theorem setLink_agenda : (setLink up s).agenda = s.agenda := rfl
@[simp] theorem setLink_draws : (setLink up s).draws = s.draws := rfl
@[simp] theorem setLink_hostReads : (setLink up s).hostReads = s.hostReads := rfl

end

/-! ## running and latching a validation (R142, R172) -/

section
variable (L : Nat) (s : State)

@[simp] theorem validateFrame_encAddr : (validateFrame L s).encAddr = s.encAddr := rfl
@[simp] theorem validateFrame_encSub : (validateFrame L s).encSub = s.encSub := rfl
@[simp] theorem validateFrame_encData : (validateFrame L s).encData = s.encData := rfl
@[simp] theorem validateFrame_dataIdx : (validateFrame L s).dataIdx = s.dataIdx := rfl
@[simp] theorem validateFrame_txLen : (validateFrame L s).txLen = s.txLen := rfl
@[simp] theorem validateFrame_rxLen : (validateFrame L s).rxLen = s.rxLen := rfl
@[simp] theorem validateFrame_rxExp : (validateFrame L s).rxExp = s.rxExp := rfl
@[simp] theorem validateFrame_txIdx : (validateFrame L s).txIdx = s.txIdx := rfl
@[simp] theorem validateFrame_crc : (validateFrame L s).crc = s.crc := rfl
@[simp] theorem validateFrame_rxCrcCalc : (validateFrame L s).rxCrcCalc = (check L s).computed := rfl
@[simp] theorem validateFrame_rxCrcRecv : (validateFrame L s).rxCrcRecv = (check L s).received := rfl
@[simp] theorem validateFrame_cmdErrCode : (validateFrame L s).cmdErrCode = s.cmdErrCode := rfl
@[simp] theorem validateFrame_result : (validateFrame L s).result = s.result := rfl
@[simp] theorem validateFrame_phase : (validateFrame L s).phase = s.phase := rfl
@[simp] theorem validateFrame_done : (validateFrame L s).done = s.done := rfl
@[simp] theorem validateFrame_valid : (validateFrame L s).valid = (check L s).ok := rfl
@[simp] theorem validateFrame_cmdErr : (validateFrame L s).cmdErr = s.cmdErr := rfl
@[simp] theorem validateFrame_rxOvf : (validateFrame L s).rxOvf = s.rxOvf := rfl
@[simp] theorem validateFrame_txBuf : (validateFrame L s).txBuf = s.txBuf := rfl
@[simp] theorem validateFrame_rxBuf : (validateFrame L s).rxBuf = s.rxBuf := rfl
@[simp] theorem validateFrame_fifo : (validateFrame L s).fifo = s.fifo := rfl
@[simp] theorem validateFrame_linkOpen : (validateFrame L s).linkOpen = s.linkOpen := rfl
@[simp] theorem validateFrame_wireOut : (validateFrame L s).wireOut = s.wireOut := rfl
@[simp] theorem validateFrame_agenda : (validateFrame L s).agenda = s.agenda := rfl
@[simp] theorem validateFrame_draws : (validateFrame L s).draws = s.draws := rfl
@[simp] theorem validateFrame_hostReads : (validateFrame L s).hostReads = s.hostReads := rfl

end

/-! ## reset (70_reset_and_hazards.md R230) -/

section
variable (s : State)

@[simp] theorem resetBlock_encAddr : (resetBlock s).encAddr = 0 := rfl
@[simp] theorem resetBlock_encSub : (resetBlock s).encSub = 0 := rfl
@[simp] theorem resetBlock_encData : (resetBlock s).encData = 0 := rfl
@[simp] theorem resetBlock_dataIdx : (resetBlock s).dataIdx = 0 := rfl
@[simp] theorem resetBlock_txLen : (resetBlock s).txLen = 0 := rfl
@[simp] theorem resetBlock_rxLen : (resetBlock s).rxLen = 0 := rfl
@[simp] theorem resetBlock_rxExp : (resetBlock s).rxExp = 0 := rfl
@[simp] theorem resetBlock_txIdx : (resetBlock s).txIdx = 0 := rfl
@[simp] theorem resetBlock_crc : (resetBlock s).crc = 0xFFFF := rfl
@[simp] theorem resetBlock_rxCrcCalc : (resetBlock s).rxCrcCalc = 0 := rfl
@[simp] theorem resetBlock_rxCrcRecv : (resetBlock s).rxCrcRecv = 0 := rfl
@[simp] theorem resetBlock_cmdErrCode : (resetBlock s).cmdErrCode = .none := rfl
@[simp] theorem resetBlock_result : (resetBlock s).result = .none := rfl
@[simp] theorem resetBlock_phase : (resetBlock s).phase = .idle := rfl
@[simp] theorem resetBlock_done : (resetBlock s).done = false := rfl
@[simp] theorem resetBlock_valid : (resetBlock s).valid = false := rfl
@[simp] theorem resetBlock_cmdErr : (resetBlock s).cmdErr = false := rfl
@[simp] theorem resetBlock_rxOvf : (resetBlock s).rxOvf = false := rfl
@[simp] theorem resetBlock_txBuf : (resetBlock s).txBuf = drawBuffer s.draws 0 Config.txBufSize := rfl
@[simp] theorem resetBlock_rxBuf : (resetBlock s).rxBuf = drawBuffer s.draws Config.txBufSize Config.rxBufSize := rfl
@[simp] theorem resetBlock_fifo : (resetBlock s).fifo = [] := rfl
@[simp] theorem resetBlock_linkOpen : (resetBlock s).linkOpen = s.linkOpen := rfl
@[simp] theorem resetBlock_wireOut : (resetBlock s).wireOut = s.wireOut := rfl
@[simp] theorem resetBlock_agenda : (resetBlock s).agenda = s.agenda := rfl
@[simp] theorem resetBlock_draws : (resetBlock s).draws = s.draws + 1 := rfl
@[simp] theorem resetBlock_hostReads : (resetBlock s).hostReads = s.hostReads := rfl

end

/-! ## `Timeout` (R177) -/

section
variable (s : State)

@[simp] theorem timeout_encAddr : (timeout s).encAddr = s.encAddr := rfl
@[simp] theorem timeout_encSub : (timeout s).encSub = s.encSub := rfl
@[simp] theorem timeout_encData : (timeout s).encData = s.encData := rfl
@[simp] theorem timeout_dataIdx : (timeout s).dataIdx = s.dataIdx := rfl
@[simp] theorem timeout_txLen : (timeout s).txLen = s.txLen := rfl
@[simp] theorem timeout_rxLen : (timeout s).rxLen = s.rxLen := rfl
@[simp] theorem timeout_rxExp : (timeout s).rxExp = s.rxExp := rfl
@[simp] theorem timeout_txIdx : (timeout s).txIdx = s.txIdx := rfl
@[simp] theorem timeout_crc : (timeout s).crc = s.crc := rfl
@[simp] theorem timeout_rxCrcCalc : (timeout s).rxCrcCalc = s.rxCrcCalc := rfl
@[simp] theorem timeout_rxCrcRecv : (timeout s).rxCrcRecv = s.rxCrcRecv := rfl
@[simp] theorem timeout_cmdErrCode : (timeout s).cmdErrCode = s.cmdErrCode := rfl
@[simp] theorem timeout_result : (timeout s).result = .readTimeout := rfl
@[simp] theorem timeout_phase : (timeout s).phase = .idle := rfl
@[simp] theorem timeout_done : (timeout s).done = true := rfl
@[simp] theorem timeout_valid : (timeout s).valid = s.valid := rfl
@[simp] theorem timeout_cmdErr : (timeout s).cmdErr = s.cmdErr := rfl
@[simp] theorem timeout_rxOvf : (timeout s).rxOvf = s.rxOvf := rfl
@[simp] theorem timeout_txBuf : (timeout s).txBuf = s.txBuf := rfl
@[simp] theorem timeout_rxBuf : (timeout s).rxBuf = s.rxBuf := rfl
@[simp] theorem timeout_fifo : (timeout s).fifo = s.fifo := rfl
@[simp] theorem timeout_linkOpen : (timeout s).linkOpen = s.linkOpen := rfl
@[simp] theorem timeout_wireOut : (timeout s).wireOut = s.wireOut := rfl
@[simp] theorem timeout_agenda : (timeout s).agenda = s.agenda := rfl
@[simp] theorem timeout_draws : (timeout s).draws = s.draws := rfl
@[simp] theorem timeout_hostReads : (timeout s).hostReads = s.hostReads := rfl

end

end Sys2Proof.Machine
end

