-- ==== Sys2Proof/Laws/Buffers.lean ====
section
/-! SUPPORT. Laws/Buffers.lean: reading a buffer after a store, and the byte order of 16-bit fields. A buffer is a vector of
fixed length, so equal contents are equal data and no store can leave its canonical form (log 11). -/

namespace Sys2Proof.Machine

/-! ## One byte -/

theorem readBuf_eq_getElem {n : Nat} (v : Vector Byte n) (i : Nat) (h : i < n) : readBuf v i = v[i] := by
  simp [readBuf, List.getD, h]

theorem readBuf_outside {n : Nat} (v : Vector Byte n) (i : Nat) (h : n ≤ i) : readBuf v i = 0 := by
  simp [readBuf, List.getD, h]

theorem readBuf_writeBuf_same {n : Nat} (v : Vector Byte n) (i : Nat) (b : Byte) (h : i < n) :
    readBuf (writeBuf v i b) i = b := by
  simp [readBuf, writeBuf, List.getD, h]

theorem readBuf_writeBuf_other {n : Nat} (v : Vector Byte n) (i j : Nat) (b : Byte) (h : i ≠ j) :
    readBuf (writeBuf v i b) j = readBuf v j := by
  simp [readBuf, writeBuf, List.getD, List.getElem?_set_ne h]

theorem writeBuf_outside {n : Nat} (v : Vector Byte n) (i : Nat) (b : Byte) (h : n ≤ i) : writeBuf v i b = v := by
  apply Vector.ext
  intro k hk
  simp [writeBuf, show i ≠ k by omega]

theorem buffer_ext {n : Nat} {v w : Vector Byte n} (h : ∀ i < n, readBuf v i = readBuf w i) : v = w := by
  apply Vector.ext
  intro i hi
  simpa [readBuf_eq_getElem, hi] using h i hi

/-! ## A sequence of bytes -/

theorem readBuf_storeBytes_before {n : Nat} (bs : List Byte) (v : Vector Byte n) (i j : Nat) (h : j < i) :
    readBuf (storeBytes v i bs) j = readBuf v j := by
  induction bs generalizing v i with
  | nil => rfl
  | cons b bs ih => rw [storeBytes, ih _ _ (by omega), readBuf_writeBuf_other _ _ _ _ (by omega)]

theorem readBuf_storeBytes_inside {n : Nat} (bs : List Byte) (v : Vector Byte n) (i k : Nat) (hk : k < bs.length)
    (hn : i + k < n) : readBuf (storeBytes v i bs) (i + k) = bs.getD k 0 := by
  induction bs generalizing v i k with
  | nil => simp at hk
  | cons b bs ih =>
    cases k with
    | zero => rw [storeBytes, readBuf_storeBytes_before _ _ _ _ (by omega)]; simpa using readBuf_writeBuf_same v i b hn
    | succ k =>
      rw [storeBytes, show i + (k + 1) = i + 1 + k by omega, ih _ _ _ (by simpa using hk) (by omega)]
      simp

theorem readBuf_storeBytes_after {n : Nat} (bs : List Byte) (v : Vector Byte n) (i j : Nat) (h : i + bs.length ≤ j) :
    readBuf (storeBytes v i bs) j = readBuf v j := by
  induction bs generalizing v i with
  | nil => rfl
  | cons b bs ih =>
    simp only [List.length_cons] at h
    rw [storeBytes, ih _ _ (by omega), readBuf_writeBuf_other _ _ _ _ (by omega)]

theorem prefixBytes_length {n : Nat} (v : Vector Byte n) (L : Nat) (h : L ≤ n) : (prefixBytes v L).length = L := by
  simp [prefixBytes, h]

theorem prefixBytes_getD {n : Nat} (v : Vector Byte n) (L i : Nat) (h : i < L) :
    (prefixBytes v L).getD i 0 = readBuf v i := by
  simp [prefixBytes, readBuf, List.getD, h]

theorem prefixBytes_succ {n : Nat} (v : Vector Byte n) (L : Nat) (h : L < n) :
    prefixBytes v (L + 1) = prefixBytes v L ++ [readBuf v L] := by
  simp [prefixBytes, readBuf, List.take_add_one, List.getD, h]

theorem prefixBytes_writeBuf {n : Nat} (v : Vector Byte n) (L i : Nat) (b : Byte) (h : L ≤ i) :
    prefixBytes (writeBuf v i b) L = prefixBytes v L := by
  simp [prefixBytes, writeBuf, List.take_set_of_le h]

theorem prefixBytes_eq_map {n : Nat} (v : Vector Byte n) (L : Nat) (h : L ≤ n) :
    prefixBytes v L = (List.range L).map fun i => readBuf v i := by
  induction L with
  | zero => simp [prefixBytes]
  | succ L ih => rw [prefixBytes_succ _ _ (by omega), ih (by omega), List.range_succ]; simp

/-! ## Byte order -/

@[simp] theorem le16_lo_hi (w : Word) : le16 (loByte w) (hiByte w) = w := by
  ext i hi
  simp only [le16, loByte, hiByte, BitVec.getElem_or, BitVec.getElem_setWidth, BitVec.getElem_shiftLeft,
    BitVec.getLsbD_extractLsb']
  by_cases h : i < 8
  · simp [h, BitVec.getLsbD_eq_getElem hi]
  · simp [h, show i - 8 < 8 by omega, show 8 + (i - 8) = i by omega, BitVec.getLsbD_eq_getElem hi]

theorem le16_toNat (lo hi : Byte) : (le16 lo hi).toNat = lo.toNat + 256 * hi.toNat := by
  have h1 := lo.isLt
  have h2 := hi.isLt
  simp only [le16, BitVec.toNat_or, BitVec.toNat_shiftLeft, BitVec.toNat_setWidth]
  rw [Nat.mod_eq_of_lt (show lo.toNat < 2 ^ 16 by omega), Nat.mod_eq_of_lt (show hi.toNat < 2 ^ 16 by omega),
    Nat.mod_eq_of_lt (by rw [Nat.shiftLeft_eq]; omega), Nat.or_comm, ← Nat.shiftLeft_add_eq_or_of_lt h1, Nat.shiftLeft_eq]
  omega

@[simp] theorem loByte_le16 (lo hi : Byte) : loByte (le16 lo hi) = lo := by
  ext i hi
  simp [le16, loByte, hi, show i < 16 by omega]

@[simp] theorem hiByte_le16 (lo hi : Byte) : hiByte (le16 lo hi) = hi := by
  ext i hi'
  simp [le16, hiByte, hi', show 8 + i < 16 by omega]

end Sys2Proof.Machine
end

