-- ==== Sys2Proof/Laws/Codes.lean ====
section
/-! SUPPORT. Laws/Codes.lean: the closed sets and their codes are in one-to-one correspondence (30_encoding.md R82 to R85,
10_state.md R21), and the open parameters lie in their ranges (00_scope.md R8). -/

namespace Sys2Proof

@[simp] theorem FnCode.ofCode_code (f : FnCode) : FnCode.ofCode f.code = some f := by cases f <;> decide

theorem FnCode.code_of_ofCode {b : Byte} {f : FnCode} (h : FnCode.ofCode b = some f) : b = f.code := by
  unfold FnCode.ofCode at h
  split at h
  · cases h; assumption
  split at h
  · cases h; assumption
  split at h
  · cases h; assumption
  split at h
  · cases h; assumption
  · cases h

@[simp] theorem Reg.ofIndex_index (r : Reg) : Reg.ofIndex r.index = some r := by cases r <;> decide

theorem Reg.ofIndex_eq_none {i : BitVec 5} : Reg.ofIndex i = none ↔ 0x14 ≤ i.toNat := by
  revert i; decide +kernel

theorem Reg.index_of_ofIndex {i : BitVec 5} {r : Reg} (h : Reg.ofIndex i = some r) : r.index = i := by
  revert i r; decide +kernel

theorem Config.rxFifoDepth_pos : 1 ≤ Config.rxFifoDepth := Nat.succ_le_succ (Nat.zero_le _)

theorem Config.rxFifoDepth_le : Config.rxFifoDepth ≤ 65535 := Config.rxFifoDepthLessOne.isLt

theorem Config.nHosts_pos : 1 ≤ Config.nHosts := Nat.succ_le_succ (Nat.zero_le _)

end Sys2Proof
end

