-- ==== Sys2Proof/Laws/Crc.lean ====
section
/-! SUPPORT. Laws/Crc.lean: the CRC folded over a sequence (41_crc.md R110), and one iteration loses nothing. -/

namespace Sys2Proof

@[simp] theorem crcFold_nil (c : Word) : crcFold c [] = c := rfl

@[simp] theorem crcFold_cons (c : Word) (b : Byte) (bs : List Byte) :
    crcFold c (b :: bs) = crcFold (crcUpdate c b) bs := rfl

theorem crcFold_append (c : Word) (xs ys : List Byte) : crcFold c (xs ++ ys) = crcFold (crcFold c xs) ys :=
  List.foldl_append

@[simp] theorem crc16_nil : crc16 [] = 0xFFFF#16 := rfl

theorem crc16_append (xs ys : List Byte) : crc16 (xs ++ ys) = crcFold (crc16 xs) ys := crcFold_append _ _ _

/-- The bit shifted out can be read back from the top bit, since 0xA001 has its own top bit set. -/
theorem crcShift_msb (c : Word) : (crcShift c).getLsbD 15 = c.getLsbD 0 := by
  unfold crcShift
  split <;> rename_i h
  · simp [h]
  · simpa using h

theorem crcShift_injective {c d : Word} (h : crcShift c = crcShift d) : c = d := by
  have h0 : c.getLsbD 0 = d.getLsbD 0 := by rw [← crcShift_msb, ← crcShift_msb, h]
  have hs : c >>> 1 = d >>> 1 := by
    unfold crcShift at h
    rw [h0] at h
    split at h
    · simpa [BitVec.xor_assoc] using congrArg (· ^^^ 0xA001#16) h
    · exact h
  apply BitVec.eq_of_getLsbD_eq
  intro i hi
  cases i with
  | zero => exact h0
  | succ i =>
    have := congrArg (fun w : Word => w.getLsbD i) hs
    simpa [Nat.add_comm 1 i] using this

theorem crcShifts_injective (n : Nat) {c d : Word} (h : crcShifts n c = crcShifts n d) : c = d := by
  induction n generalizing c d with
  | zero => exact h
  | succ n ih => exact crcShift_injective (ih h)

end Sys2Proof
end

