-- ==== Sys2Proof/Laws/Ops.lean ====
section
/-! SUPPORT. Laws/Ops.lean: what each shared operation can do, said once. -/

namespace Sys2Proof.Machine

/-! ## Busy -/

theorem busy_iff (s : State) : s.busy = true ↔ s.phase ≠ .idle := by simp [State.busy]

theorem not_busy_iff (s : State) : s.busy = false ↔ s.phase = .idle := by simp [State.busy]

theorem whenIdle_busy {f : State → State} {s : State} (h : s.busy = true) : whenIdle f s = refuse .busy s := by
  simp [whenIdle, h]

theorem whenIdle_idle {f : State → State} {s : State} (h : s.busy = false) : whenIdle f s = f s := by
  simp [whenIdle, h]

theorem whenIdle_cases (f : State → State) (s : State) :
    (s.busy = true ∧ whenIdle f s = refuse .busy s) ∨ (s.busy = false ∧ whenIdle f s = f s) := by
  cases h : s.busy
  · exact .inr ⟨rfl, whenIdle_idle h⟩
  · exact .inl ⟨rfl, whenIdle_busy h⟩

/-! ## ENCODE -/

theorem encodeRequest_cases (fn : FnCode) (p : Bool) (s : State) :
    (s.busy = true ∧ encodeRequest fn p s = refuse .busy s) ∨
    (s.busy = false ∧ addrOK fn s.encSub = false ∧ encodeRequest fn p s = refuse .badAddress s) ∨
    (s.busy = false ∧ addrOK fn s.encSub = true ∧
      encodeRequest fn p s = loadRequest (encodeFrame (requestFrame fn p s)) s) := by
  unfold encodeRequest
  rcases whenIdle_cases _ s with h | ⟨hi, h⟩
  · exact .inl h
  · right
    rw [h]
    cases ha : addrOK fn s.encSub
    · exact .inl ⟨hi, rfl, by simp⟩
    · exact .inr ⟨hi, rfl, by simp⟩

theorem requestPayload_length (fn : FnCode) (p : Bool) (s : State) : (requestPayload fn p s).length ≤ 1 := by
  cases fn <;> cases p <;> simp [requestPayload]

theorem encodeFrame_length (f : Frame) : (encodeFrame f).length = 7 + f.payload.length := by
  simp [encodeFrame, Frame.body]; omega

/-! ## Transactions -/

theorem startTransaction_cases (exp : Option (BitVec 9)) (s : State) :
    ((s.txLen.toNat < 7 ∨ 8 < s.txLen.toNat) ∧ startTransaction exp s = finish .badLength (clearOutcome s)) ∨
    (7 ≤ s.txLen.toNat ∧ s.txLen.toNat ≤ 8 ∧
      ((exp = none ∧ startTransaction exp s = finish .unsupportedFunction (clearOutcome s)) ∨
       (∃ e, exp = some e ∧ s.linkOpen = false ∧ startTransaction exp s = finish .notConnected (clearOutcome s)) ∨
       (∃ e, exp = some e ∧ s.linkOpen = true ∧ startTransaction exp s = beginTx e (clearOutcome s)))) := by
  by_cases hl : s.txLen.toNat < 7 ∨ 8 < s.txLen.toNat
  · exact .inl ⟨hl, by simp [startTransaction, hl]⟩
  · refine .inr ⟨by omega, by omega, ?_⟩
    cases exp with
    | none => exact .inl ⟨rfl, by simp [startTransaction, hl]⟩
    | some e =>
      cases hk : s.linkOpen
      · exact .inr (.inl ⟨e, rfl, rfl, by simp [startTransaction, hl, hk]⟩)
      · exact .inr (.inr ⟨e, rfl, rfl, by simp [startTransaction, hl, hk]⟩)

theorem engineTx_cases (s : State) :
    (s.linkOpen = false ∧ engineTx s = finish .connectionClosed s) ∨
    (s.linkOpen = true ∧ s.txIdx + 1 = s.txLen ∧ engineTx s = { sendByte s with phase := .rx }) ∨
    (s.linkOpen = true ∧ s.txIdx + 1 ≠ s.txLen ∧ engineTx s = sendByte s) := by
  cases hk : s.linkOpen
  · exact .inl ⟨rfl, by simp [engineTx, hk]⟩
  · right
    by_cases hl : s.txIdx + 1 = s.txLen
    · exact .inl ⟨rfl, hl, by rw [engineTx, if_pos hk, if_pos hl]⟩
    · exact .inr ⟨rfl, hl, by rw [engineTx, if_pos hk, if_neg hl]⟩

theorem engineRx_cases (s : State) :
    (s.fifo = [] ∧ engineRx s = finish .connectionClosed s) ∨
    (∃ b rest, s.fifo = b :: rest ∧ s.rxLen + 1 ≠ s.rxExp ∧ engineRx s = receiveByte b rest s) ∨
    (∃ b rest, s.fifo = b :: rest ∧ s.rxLen + 1 = s.rxExp ∧
      engineRx s = finishReception (receiveByte b rest s)) := by
  cases hf : s.fifo with
  | nil => exact .inl ⟨rfl, by simp only [engineRx, hf]⟩
  | cons b rest =>
    right
    by_cases hl : s.rxLen + 1 = s.rxExp
    · exact .inr ⟨b, rest, rfl, hl, by simp only [engineRx, hf, if_pos hl]⟩
    · exact .inl ⟨b, rest, rfl, hl, by simp only [engineRx, hf, if_neg hl]⟩

theorem deliverInto_cases (depth : Nat) (b : Byte) (s : State) :
    (s.fifo.length < depth ∧ deliverInto depth b s = { s with fifo := s.fifo ++ [b] }) ∨
    (depth ≤ s.fifo.length ∧ deliverInto depth b s = { s with rxOvf := true }) := by
  by_cases h : s.fifo.length < depth
  · exact .inl ⟨h, by simp [deliverInto, h]⟩
  · exact .inr ⟨by omega, by simp [deliverInto, h]⟩

theorem deliver_keeps_bound (b : Byte) (s : State) (h : s.fifo.length ≤ Config.rxFifoDepth) :
    (deliver b s).fifo.length ≤ Config.rxFifoDepth := by
  rcases deliverInto_cases Config.rxFifoDepth b s with ⟨hl, he⟩ | ⟨-, he⟩ <;> rw [deliver, he]
  · simpa using hl
  · exact h

/-! ## Reset -/

theorem drawBuffer_read (d base n i : Nat) (h : i < n) : readBuf (drawBuffer d base n) i = Config.freeByte d (base + i) := by
  simp [readBuf, drawBuffer, List.getD, h]

theorem resetBlock_kept (s : State) :
    (resetBlock s).linkOpen = s.linkOpen ∧ (resetBlock s).wireOut = s.wireOut ∧ (resetBlock s).agenda = s.agenda ∧
      (resetBlock s).hostReads = s.hostReads := ⟨rfl, rfl, rfl, rfl⟩

end Sys2Proof.Machine
end

