-- ==== Sys2Proof/Laws/Step.lean ====
section
/-! SUPPORT. Laws/Step.lean: what one step can do, said once: every instruction, access and event answers a next state, and
a step is the event it takes. -/

namespace Sys2Proof.Machine

theorem exec_answers_next (i : Instr) (s : State) : ∃ t, exec i s = .next t := by cases i <;> exact ⟨_, rfl⟩

/-- What a command word does: an instruction's meaning, or one of the two refusals of a word that is none (R100). -/
theorem command_cases (w : Word) (s : State) :
    (∃ i, decodeCommand w = .ok i ∧ command w s = exec i s) ∨
    (decodeCommand w = .error .reservedBits ∧ command w s = .next (refuse .reservedBits s)) ∨
    (decodeCommand w = .error .badFunction ∧ command w s = .next (whenIdle (refuse .badFunction) s)) := by
  cases h : decodeCommand w with
  | ok i => exact .inl ⟨i, rfl, by simp [command, h]⟩
  | error r =>
    cases r
    · exact .inr (.inl ⟨rfl, by simp [command, h, rejectCommand]⟩)
    · exact .inr (.inr ⟨rfl, by simp [command, h, rejectCommand]⟩)

theorem perform_disabled {e : Event} {s : State} (h : enabled e s = false) : perform e s = .next s := by
  simp [perform, h]

theorem perform_enabled {e : Event} {s : State} (h : enabled e s = true) : perform e s = happen e s := by
  simp [perform, h]

theorem perform_cases (e : Event) (s : State) :
    (enabled e s = false ∧ perform e s = .next s) ∨ (enabled e s = true ∧ perform e s = happen e s) := by
  cases h : enabled e s
  · exact .inl ⟨rfl, perform_disabled h⟩
  · exact .inr ⟨rfl, perform_enabled h⟩

theorem step_agenda {s : State} {e : Event} {rest : List Event} (h : s.agenda = e :: rest) :
    step s = perform e { s with agenda := rest } := by
  simp [step, nextEvent, takeEvent, h]

theorem step_drawn {s : State} (h : s.agenda = []) :
    step s = perform (Config.freeEvent s.draws) { s with draws := s.draws + 1 } := by
  simp [step, nextEvent, takeEvent, h]

/-- A step performs some event at a state that differs from `s` in the agenda and the draw count only. -/
theorem step_cases (s : State) :
    ∃ a d, step s = perform (nextEvent s) { s with agenda := a, draws := d } := by
  cases h : s.agenda with
  | nil => exact ⟨[], s.draws + 1, by rw [step_drawn h]; simp [nextEvent, h]⟩
  | cons e rest => exact ⟨rest, s.draws, by rw [step_agenda h]; simp [nextEvent, h]⟩

end Sys2Proof.Machine
end

