-- ==== Sys2Proof/Laws/Effects.lean ====
section
/-! SUPPORT. Laws/Effects.lean: everything an event can do, said once as a relation, and the lemma that a step does nothing
else. An invariant of the machine is a case analysis over it. -/

namespace Sys2Proof.Machine

/-- `Effect s e t`: the event `e` at `s` can leave `t`. Each constructor carries the guards it needs. -/
inductive Effect (s : State) : Event → State → Prop where
  | nothing (e : Event) : Effect s e s
  | hostRead (h : Nat) (a : Access) (v : Word) : Effect s (.host h a) (returnRead h v s)
  | refused (h : Nat) (a : Access) (c : RefusalCode) (hc : c ≠ .none) : Effect s (.host h a) (refuse c s)
  | operand (h : Nat) (a : Access) (ea : Word) (es ed di : Byte) :
      (∀ w, a ≠ .writeReg 0 w) →
      Effect s (.host h a) { s with encAddr := ea, encSub := es, encData := ed, dataIdx := di }
  | lengths (h : Nat) (a : Access) (tl : BitVec 4) (rl : BitVec 9) (hi : s.phase = .idle) :
      (∀ w, a ≠ .writeReg 0 w) →
      Effect s (.host h a) { s with txLen := tl, rxLen := rl }
  | buffers (h : Nat) (a : Access) (tb : Vector Byte Config.txBufSize) (rb : Vector Byte Config.rxBufSize)
      (hi : s.phase = .idle) :
      (∀ w, a ≠ .writeReg 0 w) →
      Effect s (.host h a) { s with txBuf := tb, rxBuf := rb }
  | crcCommand (h : Nat) (w v : Word) (hw : w.toNat % 16 = 1 ∨ w.toNat % 16 = 2) :
      Effect s (.host h (.writeReg 0 w)) { s with crc := v }
  | encoded (h : Nat) (w : Word) (fn : FnCode) (p : Bool) (hi : s.phase = .idle) (ha : addrOK fn s.encSub = true) :
      Effect s (.host h (.writeReg 0 w)) (loadRequest (encodeFrame (requestFrame fn p s)) s)
  | validateShort (h : Nat) (hi : s.phase = .idle) : Effect s (.host h (.writeReg 0 0x0004)) { s with valid := false }
  | validated (h : Nat) (hi : s.phase = .idle) :
      Effect s (.host h (.writeReg 0 0x0004)) (validateFrame s.rxLen.toNat s)
  | failedStart (h : Nat) (r : Result) (hi : s.phase = .idle) (hr : r ≠ .none) :
      Effect s (.host h (.writeReg 0 0x0005)) (finish r (clearOutcome s))
  | started (h : Nat) (e : BitVec 9) (hi : s.phase = .idle) (hk : s.linkOpen = true)
      (hl : s.txLen = 7 ∨ s.txLen = 8) (h7 : 7 ≤ e.toNat) (h262 : e.toNat ≤ 262) :
      Effect s (.host h (.writeReg 0 0x0005)) (beginTx e (clearOutcome s))
  | flushed (h : Nat) (hi : s.phase = .idle) : Effect s (.host h (.writeReg 0 0x0006)) { s with fifo := [] }
  | cleared (h : Nat) : Effect s (.host h (.writeReg 0 0x0007)) (clearStatus s)
  | closed (hb : s.phase ≠ .idle) (hk : s.linkOpen = false) : Effect s .engine (finish .connectionClosed s)
  | sent (hp : s.phase = .tx) (hk : s.linkOpen = true) (hl : s.txIdx + 1 ≠ s.txLen) : Effect s .engine (sendByte s)
  | sentLast (hp : s.phase = .tx) (hk : s.linkOpen = true) (hl : s.txIdx + 1 = s.txLen) :
      Effect s .engine { sendByte s with phase := .rx }
  | received (b : Byte) (rest : List Byte) (hp : s.phase = .rx) (hf : s.fifo = b :: rest) (hl : s.rxLen + 1 ≠ s.rxExp) :
      Effect s .engine (receiveByte b rest s)
  | receivedLast (b : Byte) (rest : List Byte) (hp : s.phase = .rx) (hf : s.fifo = b :: rest)
      (hl : s.rxLen + 1 = s.rxExp) : Effect s .engine (finishReception (receiveByte b rest s))
  | delivered (b : Byte) (hk : s.linkOpen = true) (hl : s.fifo.length < Config.rxFifoDepth) :
      Effect s (.deliver b) { s with fifo := s.fifo ++ [b] }
  | dropped (b : Byte) (hk : s.linkOpen = true) (hl : Config.rxFifoDepth ≤ s.fifo.length) :
      Effect s (.deliver b) { s with rxOvf := true }
  | timedOut (hp : s.phase = .rx) (hf : s.fifo = []) (hk : s.linkOpen = true) : Effect s .timeout (finish .readTimeout s)
  | link (e : Event) (up : Bool) (he : e = .linkDown ∨ e = .linkUp) : Effect s e (setLink up s)
  | reset : Effect s .reset (resetBlock s)

/-! ## The word of each decoded command -/

/-- What the word of a decoded command is known to be: no command word decodes to a wire row. -/
def WordOf (w : Word) : Instr → Prop
  | .crcInit => w.toNat % 16 = 1
  | .crcByte _ => w.toNat % 16 = 2
  | .validate => w = 0x0004
  | .xact => w = 0x0005
  | .flush => w = 0x0006
  | .clear => w = 0x0007
  | .frameRead | .frameWrite | .frameControl | .frameRequest => False
  | .encRead _ | .encWrite _ | .encControl _ | .encRequest _ | .reservedOp0 _ | .reservedOp8F _ _ => True

theorem opField_toNat (w : Word) : (opField w).toNat = w.toNat % 16 := by simp [opField]

theorem highField_toNat (w : Word) : (highField w).toNat = w.toNat / 16 % 4096 := by
  simp [highField, Nat.shiftRight_eq_div_pow]

theorem word_of_fields {w : Word} {op : BitVec 4} (ho : opField w = op) (hh : highField w = 0) :
    w = op.setWidth 16 := by
  apply BitVec.eq_of_toNat_eq
  have h1 := congrArg BitVec.toNat ho
  have h2 := congrArg BitVec.toNat hh
  rw [opField_toNat] at h1
  rw [highField_toNat] at h2
  have := op.isLt
  rw [BitVec.toNat_setWidth]
  simp at h2
  omega

theorem wordOf_of_decodeCommand {w : Word} {i : Instr} (h : decodeCommand w = .ok i) : WordOf w i := by
  unfold decodeCommand at h
  split at h
  · cases h; trivial
  split at h
  · cases h; trivial
  rename_i n0 n8
  split at h
  · rename_i h2
    split at h <;> cases h
    exact (opField_toNat w).symm.trans (by rw [h2]; rfl)
  rename_i n2
  split at h
  · split at h
    · cases h
    split at h <;> cases h
    rename_i fn _
    cases fn <;> trivial
  rename_i n3
  split at h
  · cases h
  rename_i hz
  have hz : highField w = 0 := by simpa using hz
  split at h
  · rename_i h1
    cases h
    exact (opField_toNat w).symm.trans (by rw [h1]; rfl)
  rename_i n1
  split at h
  · cases h; exact word_of_fields (by assumption) hz
  rename_i n4
  split at h
  · cases h; exact word_of_fields (by assumption) hz
  rename_i n5
  split at h
  · cases h; exact word_of_fields (by assumption) hz
  rename_i n6
  cases h
  have h7 : opField w = 7 := by bv_omega
  exact word_of_fields h7 hz

/-! ## Nothing else -/

theorem replyLen_range {s : State} {e : BitVec 9} (h : replyLen s = some e) (hl : 7 ≤ s.txLen.toNat) :
    7 ≤ e.toNat ∧ e.toNat ≤ 262 := by
  unfold replyLen at h
  split at h
  · rename_i fn _
    cases fn <;> simp only [replyLenOf, Option.some.injEq, reduceCtorEq] at h <;> subst h
    · have := (readTx 5 s).isLt
      rw [BitVec.toNat_add, BitVec.toNat_setWidth]
      simp
      omega
    · decide
    · have := s.txLen.isLt
      rw [BitVec.toNat_setWidth]
      omega
  · cases h

theorem effect_of_whenIdle {s : State} {h : Nat} {a : Access} {f : State → State}
    (H : s.phase = .idle → Effect s (.host h a) (f s)) : Effect s (.host h a) (whenIdle f s) := by
  rcases whenIdle_cases f s with ⟨-, he⟩ | ⟨hb, he⟩ <;> rw [he]
  · exact .refused _ _ _ (by simp)
  · exact H ((not_busy_iff s).mp hb)

theorem effect_of_command {s t : State} {h : Nat} {w : Word} (H : command w s = .next t) :
    Effect s (.host h (.writeReg 0 w)) t := by
  rcases command_cases w s with ⟨i, hd, he⟩ | ⟨-, he⟩ | ⟨-, he⟩ <;> rw [he] at H
  · have hw := wordOf_of_decodeCommand hd
    have enc : ∀ fn p, Effect s (.host h (.writeReg 0 w)) (encodeRequest fn p s) := by
      intro fn p
      rcases encodeRequest_cases fn p s with ⟨-, he⟩ | ⟨-, -, he⟩ | ⟨hi, ha, he⟩ <;> rw [he]
      · exact .refused _ _ _ (by simp)
      · exact .refused _ _ _ (by simp)
      · exact .encoded _ _ _ _ ((not_busy_iff s).mp hi) ha
    cases i <;> cases H
    · exact .crcCommand _ _ _ (.inl hw)
    · exact .crcCommand _ _ _ (.inr hw)
    · exact enc _ _
    · exact enc _ _
    · exact enc _ _
    · exact enc _ _
    · cases hw
      apply effect_of_whenIdle
      intro hi
      unfold validateRx
      split
      · exact .validateShort _ hi
      · exact .validated _ hi
    · cases hw
      apply effect_of_whenIdle
      intro hi
      rcases startTransaction_cases (replyLen s) s with
        ⟨-, he⟩ | ⟨h7, h8, ⟨-, he⟩ | ⟨e, -, -, he⟩ | ⟨e, hr, hk, he⟩⟩ <;> rw [he]
      · exact .failedStart _ _ hi (by simp)
      · exact .failedStart _ _ hi (by simp)
      · exact .failedStart _ _ hi (by simp)
      · obtain ⟨ha, hb⟩ := replyLen_range hr h7
        refine .started _ _ hi hk ?_ ha hb
        have : s.txLen.toNat = 7 ∨ s.txLen.toNat = 8 := by omega
        exact this.imp (fun h => BitVec.eq_of_toNat_eq h) (fun h => BitVec.eq_of_toNat_eq h)
    · cases hw
      exact effect_of_whenIdle fun hi => .flushed _ hi
    · cases hw; exact .cleared _
    · exact .refused _ _ _ (by simp)
    · exact .refused _ _ _ (by simp)
    · exact hw.elim
    · exact hw.elim
    · exact hw.elim
    · exact hw.elim
  · cases H; exact .refused _ _ _ (by simp)
  · cases H
    rcases whenIdle_cases (refuse .badFunction) s with ⟨-, he⟩ | ⟨-, he⟩ <;> rw [he] <;>
      exact .refused _ _ _ (by simp)

theorem effect_of_writeReg {s : State} {h : Nat} {i : BitVec 5} {r : Reg} {v : Word} (hr : Reg.ofIndex i = some r)
    (hc : r ≠ .cmd) : Effect s (.host h (.writeReg i v)) (writeReg r v s) := by
  have hi : ∀ w, Access.writeReg i v ≠ .writeReg 0 w := by
    intro w hw
    injection hw with h0
    rw [h0] at hr
    exact hc (by simpa [Reg.ofIndex, Reg.all, Reg.index] using hr.symm)
  cases r
  case cmd => exact absurd rfl hc
  case txLen => exact effect_of_whenIdle (f := fun s => { s with txLen := v.setWidth 4 }) fun hp => .lengths _ _ _ s.rxLen hp hi
  case rxLen => exact effect_of_whenIdle (f := fun s => { s with rxLen := v.setWidth 9 }) fun hp => .lengths _ _ s.txLen _ hp hi
  all_goals first | exact .nothing _ | exact .operand _ _ _ _ _ _ hi

/-- An event does nothing but one of the effects. -/
theorem effect_of_perform {s t : State} {e : Event} (H : perform e s = .next t) : Effect s e t := by
  rcases perform_cases e s with ⟨-, he⟩ | ⟨hen, he⟩ <;> rw [he] at H
  · cases H; exact .nothing _
  cases e with
  | host h a =>
    cases a with
    | readReg i => cases H; exact .hostRead _ _ _
    | readTx i => cases H; exact .hostRead _ _ _
    | readRx i => cases H; exact .hostRead _ _ _
    | writeTx i b => cases H; exact effect_of_whenIdle fun hp => .buffers _ _ _ s.rxBuf hp (by simp)
    | writeRx i b => cases H; exact effect_of_whenIdle fun hp => .buffers _ _ s.txBuf _ hp (by simp)
    | writeReg i v =>
      simp only [happen, hostAccess] at H
      split at H
      · rename_i hr
        have h0 : i = 0 := (Reg.index_of_ofIndex hr).symm
        subst h0
        exact effect_of_command H
      · rename_i r hc hr
        cases H
        exact effect_of_writeReg hr hc
      · cases H; exact .nothing _
  | engine =>
    cases H
    cases hp : s.phase with
    | idle => simp [enabled, engineEnabled, hp] at hen
    | tx =>
      simp only [engineStep, hp]
      rcases engineTx_cases s with ⟨hk, he⟩ | ⟨hk, hl, he⟩ | ⟨hk, hl, he⟩ <;> rw [he]
      · exact .closed (by simp [hp]) hk
      · exact .sentLast hp hk hl
      · exact .sent hp hk hl
    | rx =>
      simp only [engineStep, hp]
      rcases engineRx_cases s with ⟨hf, he⟩ | ⟨b, rest, hf, hl, he⟩ | ⟨b, rest, hf, hl, he⟩ <;> rw [he]
      · exact .closed (by simp [hp]) (by simpa [enabled, engineEnabled, hp, hf] using hen)
      · exact .received _ _ hp hf hl
      · exact .receivedLast _ _ hp hf hl
  | deliver b =>
    cases H
    rcases deliverInto_cases Config.rxFifoDepth b s with ⟨hl, he⟩ | ⟨hl, he⟩ <;> rw [deliver, he]
    · exact .delivered _ hen hl
    · exact .dropped _ hen hl
  | timeout =>
    cases H
    simp only [enabled, timeoutEnabled, Bool.and_eq_true, beq_iff_eq, List.isEmpty_iff] at hen
    exact .timedOut hen.1.1 hen.1.2 hen.2
  | linkDown => cases H; exact .link _ _ (.inl rfl)
  | linkUp => cases H; exact .link _ _ (.inr rfl)
  | reset => cases H; exact .reset

/-- A step does one of the effects, at a state that differs in the agenda and the draw count only. -/
theorem effect_of_step {s t : State} (H : step s = .next t) :
    ∃ a d, Effect { s with agenda := a, draws := d } (nextEvent s) t := by
  obtain ⟨a, d, h⟩ := step_cases s
  exact ⟨a, d, effect_of_perform (h ▸ H)⟩

end Sys2Proof.Machine
end

