-- ==== Sys2Proof/Laws/PerInstr.lean ====
section
/-! SUPPORT. Laws/PerInstr.lean: the law RowMatch, per instruction: the word of a well-formed instruction belongs to its row
of spec/opcode_table.json (30_encoding.md R91). -/

namespace Sys2Proof.Laws.RowMatch

/-- A command word matches its row's bits under the row's mask; a wire word is the code of a function (R82). -/
def Statement (i : Instr) : Prop :=
  i.wf = true → match encode i with
    | .command w => ∃ r, i.row = some r ∧ w &&& r.mask = r.bits
    | .wire b => i.row = none ∧ ∃ f : FnCode, f.code = b

theorem crcInit : Statement .crcInit := fun _ => ⟨_, rfl, by decide⟩

theorem crcByte (b : Byte) : Statement (.crcByte b) := fun _ => ⟨_, rfl, by revert b; decide +kernel⟩

theorem encRead (p : Bool) : Statement (.encRead p) := fun _ => ⟨_, rfl, by revert p; decide⟩

theorem encWrite (p : Bool) : Statement (.encWrite p) := fun _ => ⟨_, rfl, by revert p; decide⟩

theorem encControl (p : Bool) : Statement (.encControl p) := fun _ => ⟨_, rfl, by revert p; decide⟩

theorem encRequest (p : Bool) : Statement (.encRequest p) := fun _ => ⟨_, rfl, by revert p; decide⟩

theorem validate : Statement .validate := fun _ => ⟨_, rfl, by decide⟩

theorem xact : Statement .xact := fun _ => ⟨_, rfl, by decide⟩

theorem flush : Statement .flush := fun _ => ⟨_, rfl, by decide⟩

theorem clear : Statement .clear := fun _ => ⟨_, rfl, by decide⟩

theorem reservedOp0 (hi : BitVec 12) : Statement (.reservedOp0 hi) := fun _ => ⟨_, rfl, by revert hi; decide +kernel⟩

theorem reservedOp8F (op : BitVec 4) (hi : BitVec 12) : Statement (.reservedOp8F op hi) := by
  intro h
  have ho : 8 ≤ op.toNat → op &&& 8#4 = 8#4 := by clear h; revert op; decide
  refine ⟨_, rfl, ?_⟩
  show (hi ++ op) &&& 0x0008#16 = 0x0008#16
  rw [show (0x0008#16) = (0#12 ++ 8#4 : BitVec 16) from rfl, BitVec.and_append,
    ho (by simpa [Instr.wf] using h)]
  simp

theorem frameRead : Statement .frameRead := fun _ => ⟨rfl, .read, rfl⟩

theorem frameWrite : Statement .frameWrite := fun _ => ⟨rfl, .write, rfl⟩

theorem frameControl : Statement .frameControl := fun _ => ⟨rfl, .control, rfl⟩

theorem frameRequest : Statement .frameRequest := fun _ => ⟨rfl, .request, rfl⟩

end Sys2Proof.Laws.RowMatch
end

