-- ==== Sys2Proof/Tests/Slice0.lean ====
section
/-! SUPPORT. Tests/Slice0.lean: tests whose expected results come from the spec (30_encoding.md, 95_test_vectors.md; each
names its source), and for each obligation with hypotheses a named witness that meets them. -/

-- One proof after another: side by side they take one stack each and too much memory together.
set_option Elab.async false

namespace Sys2Proof.Tests

open Sys2Proof Sys2Proof.Machine

/-! ## Small states -/

/-- Idle, link open, both buffers zero, nothing queued. -/
def quiet : State :=
  { State.reset with txBuf := Vector.replicate 8 0, rxBuf := Vector.replicate 262 0, linkOpen := true }

/-- The state an answer gives, if it gives one. -/
def nextOf : Answer → Option State
  | .next t => some t
  | .fault _ | .refused _ => none

/-- What `f` reads in the state an answer gives. -/
def readOf {α : Type} (f : State → α) (a : Answer) : Option α := (nextOf a).map f

/-- `quiet` with the request `bs` in TxBuf. -/
def withRequest (bs : List Byte) : State := loadRequest bs quiet

/-- `quiet` with `bs` in RxBuf and its length in RX_LEN. -/
def withReply (bs : List Byte) : State :=
  { quiet with rxBuf := storeBytes quiet.rxBuf 0 bs, rxLen := BitVec.ofNat 9 bs.length }

/-- `quiet` with operand registers. -/
def operands (addr : Word) (sub data : Byte) : State := { quiet with encAddr := addr, encSub := sub, encData := data }

/-- The CONTROL STOP frame (95_test_vectors.md S1). -/
def stopFrame : List Byte := [0x55, 0x10, 0x00, 0x03, 0x03, 0x6C, 0x3D]

/-- The READ request with count 4 (95_test_vectors.md S2). -/
def pollFrame : List Byte := [0x55, 0x10, 0x00, 0x01, 0x02, 0x04, 0x9C, 0xBE]

/-- Transmitting the STOP frame (95_test_vectors.md T6). -/
def inTx : State := { withRequest stopFrame with phase := .tx, rxExp := 7 }

/-- Waiting for the reply to the STOP frame (95_test_vectors.md T6). -/
def inRx : State := { withRequest stopFrame with phase := .rx, rxExp := 7, txIdx := 7, wireOut := stopFrame }

/-- The TxBuf bytes of a request. -/
def request (s : State) : List Byte := prefixBytes s.txBuf s.txLen.toNat

/-! ## Well-formedness refuses ill-formed terms -/

theorem test_wf_reserved_opcode_below_8 : Instr.wf (.reservedOp8F 7 0) = false := by decide

theorem test_wf_frame_payload_over_255 : Frame.wf ⟨0, 1, 0, List.replicate 256 0⟩ = false := by decide +kernel

theorem test_wf_event_of_no_host (a : Access) : Event.wf (.host Config.nHosts a) = false := by simp [Event.wf]

theorem test_wf_statement_too_long (bs : List Byte) (h : bs.length = 65536) : Stmt.wf (.loadRx bs) = false := by
  simp [Stmt.wf, h]

theorem test_wf_statement_of_wire_code : Stmt.wf (.instr .frameRead) = false := by decide

/-! ## Decoding words written out from 30_encoding.md R91, R101, R105 and R82 -/

theorem test_decode_crc :
    decode (.command 0x0001) = .ok .crcInit ∧ decode (.command 0x5502) = .ok (.crcByte 0x55) := by decide

theorem test_decode_encode_read_write :
    decode (.command 0x0013) = .ok (.encRead false) ∧ decode (.command 0x0113) = .ok (.encRead true) ∧
    decode (.command 0x0023) = .ok (.encWrite false) ∧ decode (.command 0x0123) = .ok (.encWrite true) := by decide

theorem test_decode_encode_control_request :
    decode (.command 0x0033) = .ok (.encControl false) ∧ decode (.command 0x0133) = .ok (.encControl true) ∧
    decode (.command 0x0043) = .ok (.encRequest false) ∧ decode (.command 0x0143) = .ok (.encRequest true) := by decide

theorem test_decode_plain_commands :
    decode (.command 0x0004) = .ok .validate ∧ decode (.command 0x0005) = .ok .xact ∧
    decode (.command 0x0006) = .ok .flush ∧ decode (.command 0x0007) = .ok .clear := by decide

theorem test_decode_reserved_opcodes :
    decode (.command 0x0000) = .ok (.reservedOp0 0) ∧ decode (.command 0xFFFF) = .ok (.reservedOp8F 15 0xFFF) ∧
    decode (.command 0x0008) = .ok (.reservedOp8F 8 0) := by decide

theorem test_decode_wire_codes :
    decode (.wire 0x01) = .ok .frameRead ∧ decode (.wire 0x02) = .ok .frameWrite ∧
    decode (.wire 0x03) = .ok .frameControl ∧ decode (.wire 0x04) = .ok .frameRequest := by decide

theorem test_decode_rejects_by_name :
    decode (.command 0x0011) = .error (.command .reservedBits) ∧
    decode (.command 0x0105) = .error (.command .reservedBits) ∧
    decode (.command 0x0213) = .error (.command .reservedBits) ∧
    decode (.command 0x0003) = .error (.command .badFunction) ∧
    decode (.wire 0x00) = .error (.wire .notAFunctionCode) := by decide

theorem test_decode_table_words :
    decodeTableWord 16 0x0001 = some .crcInit ∧ decodeTableWord 16 0x0002 = some (.crcByte 0) ∧
    decodeTableWord 8 0x03 = some .frameControl ∧ decodeTableWord 8 0x08 = some (.reservedOp8F 8 0) := by decide

theorem test_decode_stop_frame : decodeFrame stopFrame = .ok ⟨0x0010, 0x03, 0x03, []⟩ := by decide +kernel

theorem test_decode_swapped_trailer : decodeFrame [0x55, 0x10, 0x00, 0x03, 0x03, 0x3D, 0x6C] = .error .badCrc := by
  decide +kernel

/-! ## CRC (95_test_vectors.md T1, T2) -/

theorem test_crc16_check_value : crc16 [0x31, 0x32, 0x33, 0x34, 0x35, 0x36, 0x37, 0x38, 0x39] = 0x4B37 := by decide +kernel

theorem test_crc_update_steps :
    crcUpdate 0x0000 0x01 = 0xC0C1 ∧ crcUpdate 0x0000 0x80 = 0xA001 ∧ crcUpdate 0x1234 0x00 = 0xD713 := by decide +kernel

theorem test_crcInit : readOf State.crc (exec .crcInit { inRx with crc := 0x1234 }) = some 0xFFFF := by decide +kernel

theorem test_crcByte : readOf State.crc (exec (.crcByte 0x55) { inRx with crc := 0xFFFF }) = some 0x7F7F := by
  decide +kernel

theorem test_crcByte_word_runs : readOf State.crc (step ({ quiet with crc := 0x3D6C }.withFetchWord 16 0x6C02)) = some 0x003D := by
  decide +kernel

/-! ## ENCODE (T3) -/

theorem test_encRead_count_4 : readOf request (exec (.encRead true) (operands 0x0010 0x02 0x04)) = some pollFrame := by
  decide +kernel

theorem test_encRead_implicit_count :
    readOf request (exec (.encRead false) (operands 0x0010 0x02 0x99)) =
      some [0x55, 0x10, 0x00, 0x01, 0x02, 0x01, 0x5C, 0xBD] := by decide +kernel

theorem test_encWrite_value :
    readOf request (exec (.encWrite true) (operands 0x0010 0x28 0x03)) =
      some [0x55, 0x10, 0x00, 0x02, 0x28, 0x03, 0x32, 0x1C] := by decide +kernel

theorem test_encWrite_none :
    readOf request (exec (.encWrite false) (operands 0x0010 0x03 0x99)) =
      some [0x55, 0x10, 0x00, 0x02, 0x03, 0x6D, 0xAD] := by decide +kernel

theorem test_encControl_keeps_byte_7 :
    readOf (fun s => s.txBuf.toList) (exec (.encControl false) { withRequest pollFrame with encAddr := 0x0010, encSub := 0x03 }) =
      some (stopFrame ++ [0xBE]) := by decide +kernel

theorem test_encControl_high_address :
    readOf request (exec (.encControl true) (operands 0x0102 0x0B 0x07)) =
      some [0x55, 0x02, 0x01, 0x03, 0x0B, 0x07, 0xC2, 0xD0] := by decide +kernel

theorem test_encRequest_any_address :
    readOf request (exec (.encRequest true) (operands 0x0010 0x00 0xAA)) =
      some [0x55, 0x10, 0x00, 0x04, 0x00, 0xAA, 0x0C, 0x63] := by decide +kernel

/-! ## VALIDATE and the views (T4) -/

theorem test_validate_stop :
    readOf (fun s => (s.valid, s.rxCrcCalc, s.rxCrcRecv)) (exec .validate (withReply stopFrame)) =
      some (true, 0x3D6C, 0x3D6C) := by decide +kernel

theorem test_validate_bad_start :
    readOf (fun s => (s.valid, s.rxCrcCalc, s.rxCrcRecv))
      (exec .validate (withReply [0x54, 0x10, 0x00, 0x03, 0x03, 0x6C, 0x3D])) = some (false, 0xFD51, 0x3D6C) := by
  decide +kernel

theorem test_views_of_read_reply :
    (let s := { withReply [0x55, 0x10, 0x00, 0x01, 0x02, 0x96, 0x01, 0x00, 0x02, 0x4D, 0x37] with dataIdx := 3 };
     [readReg .rxAddr s, readReg .rxFn s, readReg .rxSub s, readReg .rxDlen s, readReg .dataAt s]) =
      [0x0010, 0x0001, 0x0002, 0x0096, 0x0002] := by decide +kernel

/-! ## XACT, the FRAME rows and FLUSH (T5, T6, T8) -/

theorem test_xact_starts_read :
    readOf (fun s => (statusWord s, s.rxExp, s.txIdx)) (exec .xact (withRequest pollFrame)) = some (0x0083, 11, 0) := by
  decide +kernel

theorem test_xact_function_before_connection :
    readOf (fun s => statusWord s)
      (exec .xact { withRequest [0x55, 0x10, 0x00, 0x04, 0x00, 0x2E, 0x0C] with linkOpen := false }) = some 0x0608 := by
  decide +kernel

theorem test_frameRead_count_255 :
    readOf State.rxExp (exec .frameRead (withRequest [0x55, 0x10, 0x00, 0x01, 0x02, 0xFF, 0xDD, 0x3D])) = some 262 := by
  decide +kernel

theorem test_frameWrite_short :
    readOf State.rxExp (exec .frameWrite (withRequest [0x55, 0x10, 0x00, 0x02, 0x03, 0x6D, 0xAD])) = some 8 := by
  decide +kernel

theorem test_frameControl_not_connected :
    readOf (fun s => statusWord s) (exec .frameControl { withRequest stopFrame with linkOpen := false }) = some 0x0208 := by
  decide +kernel

theorem test_frameRequest_unsupported :
    readOf (fun s => statusWord s) (exec .frameRequest (withRequest [0x55, 0x10, 0x00, 0x04, 0x00, 0x2E, 0x0C])) =
      some 0x0688 := by decide +kernel

theorem test_flush : readOf State.fifo (exec .flush { quiet with fifo := [0x3D, 0x55] }) = some [] := by decide +kernel

theorem test_flush_busy :
    readOf (fun s => (s.cmdErrCode, s.fifo)) (exec .flush { inRx with fifo := [0x55] }) = some (.busy, [0x55]) := by
  decide +kernel

/-! ## The engine and the line (T6) -/

theorem test_engine_sends :
    readOf (fun s => (s.wireOut, s.phase)) (perform .engine { inTx with txIdx := 6 }) = some ([0x3D], .rx) := by
  decide +kernel

theorem test_engine_last_byte :
    readOf (fun s => (statusWord s, s.rxLen, s.rxCrcRecv))
      (perform .engine { inRx with rxBuf := storeBytes quiet.rxBuf 0 stopFrame, rxLen := 6, fifo := [0x3D] }) =
      some (0x0198, 7, 0x3D6C) := by decide +kernel

theorem test_engine_link_down_after_three :
    readOf (fun s => (statusWord s, s.txIdx)) (perform .engine { inTx with txIdx := 3, linkOpen := false }) =
      some (0x0408, 3) := by decide +kernel

theorem test_timeout : readOf (fun s => statusWord s) (perform .timeout { inRx with rxLen := 3 }) = some 0x0388 := by
  decide +kernel

theorem test_fifo_overflow_at_4 :
    (let s := deliverInto 4 0x04 { quiet with fifo := [0x00, 0x01, 0x02, 0x03] }; (s.fifo, statusWord s)) =
      ([0x00, 0x01, 0x02, 0x03], 0x00C0) := by decide +kernel

/-! ## CLEAR, refusals, reset (T9, T10, T11) -/

/-- 20_memory.md R61, where the model refuses (log 18). -/
theorem test_buffer_write_outside_while_busy :
    readOf State.cmdErrCode (hostAccess 0 (.writeTx 8 0) inRx) = some .busy ∧
    readOf State.cmdErrCode (hostAccess 0 (.writeTx 8 0) quiet) = some .none := by decide +kernel

theorem test_clear :
    (let s := { quiet with result := .invalidFrame, linkOpen := false, cmdErr := true, cmdErrCode := .busy, done := true };
     (statusWord s, readOf (fun t => (statusWord t, t.cmdErrCode)) (exec .clear s))) =
      (0x0528, some (0x0000, .none)) := by decide +kernel

theorem test_clear_busy :
    readOf (fun s => statusWord s) (exec .clear { inTx with cmdErr := true, cmdErrCode := .busy }) = some 0x0083 := by
  decide +kernel

theorem test_reserved_words_refused :
    readOf State.cmdErrCode (command 0x0000 quiet) = some .reservedOpcode ∧
    readOf State.cmdErrCode (command 0xFFFF quiet) = some .reservedOpcode := by decide +kernel

theorem test_refusal_order :
    readOf State.cmdErrCode (command 0x0053 inTx) = some .busy ∧
    readOf State.cmdErrCode (command 0x0053 quiet) = some .badFunction ∧
    readOf State.cmdErrCode (command 0x0105 inTx) = some .reservedBits := by decide +kernel

theorem test_reset :
    readOf (fun s => (statusWord s, s.crc, s.rxLen, s.fifo, s.wireOut))
      (perform .reset { inRx with rxLen := 3, fifo := [0xAA], crc := 0x1234 }) =
      some (0x0080, 0xFFFF, 0, [], stopFrame) := by decide +kernel

/-! ## Steps and placed instructions -/

theorem test_step_runs_placed_wire_code :
    readOf State.rxExp (step (quiet.withFetchWord 8 0x01)) = some 7 := by decide +kernel

theorem test_step_refuses_placed_zero_word :
    readOf State.cmdErrCode (step (State.reset.withFetchWord 16 0x0000)) = some .reservedOpcode := by decide +kernel

/-! ## The assembly language (30_encoding.md R105, R106) -/

theorem test_assemble_statements :
    (assembleLine "ENC.READ.P".toList).toOption = some (.instr (.encRead true)) ∧
    (assembleLine "WR ENC_ADDR, 0x0010".toList).toOption = some (.wr .encAddr 0x0010) ∧
    (assembleLine "WRB RX[261], 255".toList).toOption = some (.wrb .rx 261 0xFF) := by decide +kernel

theorem test_assembler_refuses :
    assembleLine "CRC.BYTE 256".toList = .error .badOperands ∧
    assembleLine "NOP".toList = .error .unknownStatement := by decide +kernel

/-- The blanks R105 does not speak of (log 15). -/
theorem test_assembler_blanks :
    assembleLine "  WR   ENC_ADDR ,0x0010 ".toList = .ok (.wr .encAddr 0x0010) ∧
    assembleLine "WRB TX[ 1], 2".toList = .error .badOperands := by decide +kernel

theorem test_send_takes_16_bit_operands :
    (assembleLine "SEND READ, 0x0010, 0x0102, 0x0104".toList).toOption =
      some (.send .read 0x0010 0x0102 (some 0x0104)) := by decide +kernel

theorem test_check_expands :
    (Stmt.checkFrame [0x55, 0x10]).accesses =
      [.writeRx 0 0x55, .writeRx 1 0x10, .writeReg 0x08 2, .writeReg 0x00 0x0004] := by decide +kernel

/-! ## Witnesses: hypotheses of the obligations that some state and operands meet -/

/-- DecodeOfEncodeIsInstruction, at both ends of the only limited field. -/
theorem witness_instr_wf :
    Instr.wf (.reservedOp8F 8 0) = true ∧ Instr.wf (.reservedOp8F 15 0xFFF) = true ∧ Instr.wf .frameRead = true := by decide

/-- EncodeOfDecodeIsWord. -/
theorem witness_decodes : decode (.command 0x0113) = .ok (.encRead true) := by decide

/-- DecoderAgreesWithOpcodeTable: a word of the row ENC.READ, with P set. -/
theorem witness_row :
    (⟨0x0013, 0xFEFF⟩ : OpcodeRow) ∈ opcodeRows ∧ (0x0113#16 &&& 0xFEFF#16) = 0x0013#16 ∧
      decodeCommand 0x0113 = .ok (.encRead true) ∧ Instr.row (.encRead true) = some ⟨0x0013, 0xFEFF⟩ := by decide

/-- FrameDecodeOfEncode and CheckOfEncodedFrameIsValid, at both ends of the payload length. -/
theorem witness_frame_wf :
    Frame.wf ⟨0x0010, 0x03, 0x03, []⟩ = true ∧ Frame.wf ⟨0x0010, 0x01, 0x02, List.replicate 255 0⟩ = true := by
  decide +kernel

/-- FrameEncodeOfDecode. -/
theorem witness_frame_decodes : decodeFrame stopFrame = .ok ⟨0x0010, 0x03, 0x03, []⟩ := by decide +kernel

/-- The words with a reserved bit in CrcInitResetsAccumulator, CrcByteFoldsOneByte, the four ENCODE statements,
ValidateChecksFrame, XactChecksThenStarts, FlushEmptiesFifo and ClearClearsLatchedStatus. -/
theorem witness_reserved_bits :
    (0x0011#16).toNat % 16 = 1 ∧ (0x0212#16).toNat / 16 % 16 ≠ 0 ∧ (0x0213#16).toNat % 256 = 0x13 ∧
      512 ≤ (0x0213#16).toNat ∧ (0x0223#16).toNat % 256 = 0x23 ∧ (0xFF33#16).toNat % 256 = 0x33 ∧
      (0x0243#16).toNat % 256 = 0x43 ∧ (0x0014#16).toNat % 16 = 4 ∧ (0x0105#16).toNat % 16 = 5 ∧
      (0x0016#16).toNat % 16 = 6 ∧ (0x0107#16).toNat % 16 = 7 := by decide

/-- The busy and the idle clause of every command that has them. -/
theorem witness_busy_and_idle : inTx.busy = true ∧ inRx.busy = true ∧ quiet.busy = false := by decide +kernel

/-- CrcBlockLeavesCrc16 and SendStartsTransaction: a program of host 0 on the agenda. -/
theorem witness_program (prog : List Stmt) :
    0 < Config.nHosts ∧ { quiet with agenda := programEvents 0 prog ++ [] }.agenda = programEvents 0 prog ++ [] :=
  ⟨Config.nHosts_pos, rfl⟩

/-- The STOP frame with bit `j` of byte `k` flipped, in RxBuf. -/
def flipped (k j : Nat) : State := withReply (stopFrame.set k (stopFrame.getD k 0 ^^^ (1#8 <<< j)))

/-- SingleBitFlipInvalidatesFrame: flips in the first byte, in the last one before the trailer, in the trailer's first byte
and in the last byte meet every hypothesis. -/
theorem witness_flips :
    (withReply stopFrame).busy = false ∧ (withReply stopFrame).rxLen.toNat = 7 ∧
      readOf State.valid (exec .validate (withReply stopFrame)) = some true ∧
      ∀ p ∈ [(0, 7), (4, 0), (5, 7), (6, 0)],
        (flipped p.1 p.2).busy = false ∧ (flipped p.1 p.2).rxLen = (withReply stopFrame).rxLen ∧
          readRx p.1 (flipped p.1 p.2) = readRx p.1 (withReply stopFrame) ^^^ (1#8 <<< p.2) ∧
          ∀ i < 7, i ≠ p.1 → readRx i (flipped p.1 p.2) = readRx i (withReply stopFrame) := by
  decide +kernel

/-- The address clauses of the ENCODE statements and of AddressClassesOfFunctions, at the edges of the sets. -/
theorem witness_addresses :
    addrOK .read 0x28 = true ∧ addrOK .read 0x29 = false ∧ addrOK .write 0x05 = true ∧ addrOK .write 0x06 = false ∧
      addrOK .control 0x0B = true ∧ addrOK .control 0x0C = false ∧ addrOK .control 0x00 = false ∧
      addrOK .request 0xEE = true := by decide

/-- EncodedRequestValidates: the request ENC.CONTROL builds, and a state that holds it in RxBuf. -/
theorem witness_encoded_request :
    (operands 0x0010 0x03 0).busy = false ∧ addrOK .control (operands 0x0010 0x03 0).encSub = true ∧
      readOf (fun t => (t.txLen.toNat, request t)) (exec (encodeInstr .control false) (operands 0x0010 0x03 0)) =
        some (7, stopFrame) ∧
      (withReply stopFrame).busy = false ∧ (withReply stopFrame).rxLen.toNat = 7 ∧
      rxBytes 7 (withReply stopFrame) = stopFrame := by decide +kernel

/-- ValidateChecksFrame: lengths at the edges of its clauses. -/
theorem witness_validate_lengths :
    { quiet with rxLen := 6 }.rxLen.toNat < 7 ∧ 262 < { quiet with rxLen := 263 }.rxLen.toNat ∧
      { quiet with rxLen := 7 }.rxLen.toNat = 7 ∧ { quiet with rxLen := 262 }.rxLen.toNat = 262 ∧
      { quiet with rxLen := 262 }.busy = false := by decide +kernel

/-- XactChecksThenStarts and FrameRowsTransactTheirRequest: each branch, in an idle state. -/
theorem witness_xact_branches :
    { quiet with txLen := 6 }.txLen.toNat < 7 ∧ 8 < { quiet with txLen := 9 }.txLen.toNat ∧
      readTx 3 (withRequest [0x55, 0x10, 0x00, 0x04, 0x00, 0x2E, 0x0C]) ∉ [0x01#8, 0x02#8, 0x03#8] ∧
      readTx 3 (withRequest pollFrame) = 0x01#8 ∧ (withRequest pollFrame).txLen.toNat = 8 ∧
      readTx 3 (withRequest stopFrame) = 0x03#8 ∧ (withRequest stopFrame).txLen.toNat = 7 ∧
      (withRequest pollFrame).busy = false := by decide +kernel

/-- XactRunsFrameInTxBuf. -/
theorem witness_frame_in_txbuf :
    readTx 3 (withRequest pollFrame) = FnCode.read.code ∧ readTx 3 (withRequest stopFrame) = FnCode.control.code := by
  decide +kernel

/-- EngineTransmitsOneByte: idle, and in TX with the link open and closed, the last byte and another. -/
theorem witness_transmitting :
    quiet.phase = .idle ∧ inTx.phase = .tx ∧ inTx.linkOpen = true ∧ { inTx with linkOpen := false }.phase = .tx ∧
      { inTx with txIdx := 6 }.txIdx + 1 = { inTx with txIdx := 6 }.txLen := by decide +kernel

/-- The invariants while receiving, for any FIFO contents within its depth. -/
theorem inRx_inv (bs : List Byte) (h : bs.length ≤ 1) (k : Bool) (n : BitVec 9) (hn : n.toNat < 7) :
    State.Inv { inRx with fifo := bs, linkOpen := k, rxLen := n } :=
  ⟨le_trans h Config.rxFifoDepth_pos, fun h => (by cases h), fun _ => ⟨.inl rfl, Nat.le_refl 7, (by decide : 7 ≤ 262), hn⟩⟩

/-- EngineReceivesOneByte: a byte buffered (the last one and another), and none with the link closed. -/
theorem witness_receiving :
    { inRx with fifo := [0x3D], linkOpen := true, rxLen := 6 }.Inv ∧
      { inRx with fifo := [0x55], linkOpen := false, rxLen := 0 }.Inv ∧
      { inRx with fifo := [], linkOpen := false, rxLen := 2 }.Inv :=
  ⟨inRx_inv _ (by decide) _ _ (by decide), inRx_inv _ (by decide) _ _ (by decide),
    inRx_inv _ (by decide) _ _ (by decide)⟩

/-- EventsEnabledWhileWaiting and TimeoutEndsTransaction, link open and closed. -/
theorem witness_waiting :
    inRx.phase = .rx ∧ inRx.fifo = [] ∧ inRx.linkOpen = true ∧ { inRx with linkOpen := false }.fifo = [] := by
  decide +kernel

/-- LineDeliversByte: a FIFO with room and a full one, link open. -/
theorem witness_fifo_room_and_full :
    quiet.linkOpen = true ∧ quiet.fifo.length < Config.rxFifoDepth ∧
      ¬ { quiet with fifo := List.replicate Config.rxFifoDepth 0 }.fifo.length < Config.rxFifoDepth :=
  ⟨rfl, Config.rxFifoDepth_pos, by simp⟩

/-- LinkChangesOnlyLink. -/
theorem witness_link : quiet.linkOpen = true ∧ { quiet with linkOpen := false }.linkOpen = false := by decide

/-- TransactionRunsToResult: the STOP request with its echo and one stale byte buffered. -/
theorem witness_transaction :
    (let s := { withRequest stopFrame with fifo := stopFrame ++ [0xAA] };
     s.busy = false ∧ s.txLen = 7 ∧ s.linkOpen = true ∧ readTx 3 s = 0x03#8 ∧ stopFrame.length = s.txLen.toNat) := by
  decide +kernel

/-- ReservedOpcodesRefused, at both ends. -/
theorem witness_reserved_opcodes : 8 ≤ (8#4).toNat ∧ 8 ≤ (15#4).toNat := by decide

/-- DispatchChecksInOrder: a word and a state for each branch, and one that passes every check. -/
theorem witness_dispatch :
    readOf State.cmdErrCode (command 0x0008 quiet) = some .reservedOpcode ∧
      readOf State.cmdErrCode (command 0x0212 quiet) = some .reservedBits ∧
      readOf State.cmdErrCode (command 0x0033 inRx) = some .busy ∧
      readOf State.cmdErrCode (command 0x0003 quiet) = some .badFunction ∧
      readOf State.cmdErrCode (command 0x0033 (operands 0 0x05 0)) = some .badAddress ∧
      readOf State.cmdErrCode (command 0x0033 (operands 0 0x0B 0)) = some .none := by decide +kernel

/-- The host accesses of RegisterWritesStoreUsedBits, RegisterReadsAreZeroExtended, ReservedSlotsReadZero (both ends of the
reserved slots) and BufferAccessByIndex (both sides of each buffer's end). -/
theorem witness_accesses :
    0 < Config.nHosts ∧ 0x14 ≤ (0x14#5).toNat ∧ 0x14 ≤ (0x1F#5).toNat ∧ readTx 7 (withRequest pollFrame) = 0xBE ∧
      readTx 8 (withRequest pollFrame) = 0 ∧ readRx 262 quiet = 0 ∧ quiet.fifo.length ≤ 65535 := by
  refine ⟨Config.nHosts_pos, ?_⟩
  decide +kernel

/-- SendStartsTransaction: a READ with a count and a sub-address above 0xFF, and a CONTROL without data. -/
theorem witness_send :
    FnCode.read ≠ .request ∧ addrOK .read ((0x0102#16).setWidth 8) = true ∧ FnCode.control ≠ .request ∧
      addrOK .control ((0x0003#16).setWidth 8) = true ∧
      quiet.busy = false ∧ quiet.linkOpen = true := by decide +kernel

/-- CheckOfEncodedFrameIsValid. -/
theorem witness_check :
    0 < Config.nHosts ∧ quiet.busy = false ∧ Frame.wf ⟨0x0010, 0x03, 0x03, []⟩ = true := ⟨Config.nHosts_pos, rfl, rfl⟩

/-- StepRunsDecodedInstruction. -/
theorem witness_step_decodes :
    0 < Config.nHosts ∧ { quiet with agenda := [.host 0 (.writeReg 0 0x0005)] }.agenda = [.host 0 (.writeReg 0 0x0005)] ∧
      decodeCommand 0x0005 = .ok .xact := ⟨Config.nHosts_pos, rfl, by decide⟩

/-- StepKeepsInv and StepKeepsOutcomesAgree: a state in TX and one in RX, each with a step. -/
theorem witness_invariant_steps :
    inTx.Inv ∧ inTx.OutcomesAgree ∧ (∃ t, step { inTx with agenda := [.engine] } = .next t) ∧
      { inRx with fifo := [], linkOpen := true, rxLen := 0 }.Inv ∧
      (∃ t, step { inRx with agenda := [.timeout] } = .next t) :=
  ⟨⟨Nat.zero_le _, fun _ => ⟨.inl rfl, by decide, rfl, by decide, by decide⟩, fun h => by cases h⟩,
    ⟨by decide +kernel, by decide +kernel, fun _ => by decide +kernel⟩, ⟨_, rfl⟩,
    inRx_inv _ (by decide) _ _ (by decide), ⟨_, rfl⟩⟩

/-- WireCarriesOneRequestAtATime and OnlyEngineAppendsToWire: part-way through the request, and idle. -/
theorem witness_wire :
    SentSoFar [0xAA] { inTx with txIdx := 3, wireOut := [0xAA, 0x55, 0x10, 0x00], agenda := [.engine] } ∧
      inTx.busy = true ∧ nextEvent { inTx with agenda := [.engine] } ≠ .reset ∧ quiet.busy = false := by
  unfold SentSoFar
  decide +kernel

/-- PhaseChangesOnlyByRule: a step of each kind that changes the phase. -/
theorem witness_phase_changes :
    readOf State.phase (step ((withRequest stopFrame).withFetchWord 16 0x0005)) = some .tx ∧
      readOf State.phase (step { inTx with txIdx := 6, agenda := [.engine] }) = some .rx ∧
      readOf State.result (step { inTx with linkOpen := false, agenda := [.engine] }) = some .connectionClosed ∧
      readOf State.result (step { inRx with fifo := [0x00], rxLen := 6, agenda := [.engine] }) = some .invalidFrame ∧
      readOf State.result (step { inRx with agenda := [.timeout] }) = some .readTimeout ∧
      readOf State.phase (step { inRx with agenda := [.reset] }) = some .idle := by
  decide +kernel

/-- DoneChangesOnlyByRule: a step that sets DONE and one that clears it. -/
theorem witness_done_changes :
    readOf State.done (step { inRx with agenda := [.timeout] }) = some true ∧ inRx.done = false ∧
      readOf State.done (exec .clear { quiet with done := true, result := .ok }) = some false := by decide +kernel

/-- StickyFlagsStaySet and OnlyCrcCommandsWriteCrc: a step that is no reset and no command. -/
theorem witness_plain_step :
    nextEvent { quiet with cmdErr := true, rxOvf := true, agenda := [.linkDown] } ≠ .reset ∧
      (∀ h w, nextEvent { quiet with agenda := [.linkDown] } ≠ .host h (.writeReg 0 w)) := by
  simp [nextEvent]

end Sys2Proof.Tests
end

section
/-! PROOFS. A step at a host's write to `CMD`, and the instruction placed by `withFetchWord` (00_scope.md R6,
10_state.md R23, 20_memory.md R71). -/

namespace Sys2Proof.Machine

/-! ## A write to `CMD` -/

theorem command_of_decode {w : Word} {i : Instr} (hd : decodeCommand w = .ok i) (s : State) : command w s = exec i s := by
  simp only [command, hd]

theorem hostAccess_writeCmd (h : Nat) (w : Word) (s : State) :
    hostAccess h (.writeReg Reg.cmd.index w) s = command w s := by
  simp only [hostAccess, Reg.ofIndex_index]

theorem perform_writeCmd {h : Nat} (hh : h < Config.nHosts) (w : Word) (s : State) :
    perform (.host h (.writeReg Reg.cmd.index w)) s = command w s := by
  have hen : enabled (.host h (.writeReg Reg.cmd.index w)) s = true := decide_eq_true hh
  rw [perform_enabled hen, happen, hostAccess_writeCmd]

/-- A write to `CMD` at the head of the agenda is dispatched at the state without it (R6, R23). -/
theorem step_writeCmd {s : State} {h : Nat} {w : Word} {rest : List Event} (hh : h < Config.nHosts)
    (ha : s.agenda = .host h (.writeReg Reg.cmd.index w) :: rest) : step s = command w { s with agenda := rest } := by
  rw [step_agenda ha, perform_writeCmd hh]

theorem step_queueCommand (w : Word) (s : State) : step (queueCommand w s) = command w s :=
  step_writeCmd Config.nHosts_pos rfl

/-! ## The request in `TxBuf` -/

theorem decodeWire_code (fn : FnCode) : decodeWire fn.code = .ok (frameInstr fn) := by
  simp only [decodeWire, FnCode.ofCode_code]

/-- XACT is the FRAME row of the function code in `TxBuf[3]` (R160, R165; log 8). -/
theorem exec_xact_of_fnByte {s : State} {fn : FnCode} (hf : readTx 3 s = fn.code) :
    exec .xact s = exec (frameInstr fn) s := by
  have hx : exec .xact s = .next (transactFrame fn s) := by
    simp only [exec, execXact, transactFrame, whenIdle, replyLen, hf, FnCode.ofCode_code]
  cases fn <;> exact hx

/-- Byte 3 of a loaded frame is its function byte (R80). -/
theorem readTx_fnByte_loadRequest (f : Frame) (s : State) : readTx 3 (loadRequest (encodeFrame f) s) = f.fn := by
  have hl : 3 < (encodeFrame f).length := by rw [encodeFrame_length]; omega
  have hs := readBuf_storeBytes_inside (encodeFrame f) s.txBuf 0 3 hl (by decide)
  rw [Nat.zero_add] at hs
  rw [readTx, loadRequest_txBuf, hs]
  simp [encodeFrame, Frame.body]

/-! ## A placed word (log 7) -/

theorem withFetchWord_command (w : Word) (s : State) : s.withFetchWord 16 w.toNat = queueCommand w s := by
  simp [State.withFetchWord, placeWord]

theorem withFetchWord_wire (fn : FnCode) (s : State) :
    s.withFetchWord 8 fn.code.toNat = queueCommand 0x0005 (loadRequest (zeroRequest fn.code) s) := by
  simp [State.withFetchWord, placeWord, decodeWire_code]

theorem step_withFetchWord_command (w : Word) (s : State) : step (s.withFetchWord 16 w.toNat) = command w s := by
  rw [withFetchWord_command, step_queueCommand]

theorem step_withFetchWord_wire (fn : FnCode) (s : State) :
    step (s.withFetchWord 8 fn.code.toNat) = exec (frameInstr fn) (loadRequest (zeroRequest fn.code) s) := by
  have hx : decodeCommand 0x0005 = .ok .xact := by decide
  have hf : readTx 3 (loadRequest (zeroRequest fn.code) s) = fn.code := readTx_fnByte_loadRequest _ s
  rw [withFetchWord_wire, step_queueCommand, command_of_decode hx, exec_xact_of_fnByte hf]

/-- Settles O41: a write to `CMD` is dispatched at the state without it, and both kinds of placed word become such a write;
for a wire code that write is XACT, which finds the code in byte 3 of the loaded request. -/
theorem stepRunsDecodedInstruction : Obligations.StepRunsDecodedInstruction := by
  refine ⟨fun s h w i rest hh ha hd => ?_, fun s w i hd => ?_, fun s fn => step_withFetchWord_wire fn s⟩
  · rw [step_writeCmd hh ha, command_of_decode hd]
  · rw [step_withFetchWord_command, command_of_decode hd]

end Sys2Proof.Machine
end

section
/-! PROOFS. The invariants of 10_state.md R58, and which steps change the wire trace, PHASE, DONE, the sticky flags and CRC:
each a case analysis over `Effect`. -/

namespace Sys2Proof.Machine

/-! ## The invariants (R58) -/

/-- While idle the invariants bound the FIFO only. -/
theorem State.Inv.of_idle {s : State} (hp : s.phase = .idle) (hf : s.fifo.length ≤ Config.rxFifoDepth) : s.Inv where
  fifo_bounded := hf
  in_tx h := nomatch hp.symm.trans h
  in_rx h := nomatch hp.symm.trans h

/-- What the block's surroundings hold is no part of the invariants. -/
theorem State.Inv.with_outside {s : State} (hs : s.Inv) (a : List Event) (d : Nat) :
    State.Inv { s with agenda := a, draws := d } := ⟨hs.fifo_bounded, hs.in_tx, hs.in_rx⟩

/-- An accepted XACT sets TX_IDX and RX_LEN to 0 and RX_EXP to a length in range (44_transaction.md R165). -/
theorem inv_beginTx {s : State} {e : BitVec 9} (hs : s.Inv) (hl : s.txLen = 7 ∨ s.txLen = 8) (h7 : 7 ≤ e.toNat)
    (h262 : e.toNat ≤ 262) : (beginTx e (clearOutcome s)).Inv where
  fifo_bounded := hs.fifo_bounded
  in_tx _ := ⟨hl, by rcases hl with h | h <;> simp [h], rfl, h7, h262⟩
  in_rx h := nomatch h

/-- A transmit step that is not the last keeps TX_IDX below TX_LEN (R171). -/
theorem inv_sendByte {s : State} (hs : s.Inv) (hp : s.phase = .tx) (hl : s.txIdx + 1 ≠ s.txLen) : (sendByte s).Inv where
  fifo_bounded := hs.fifo_bounded
  in_tx _ := by
    obtain ⟨hlen, hidx, hrest⟩ := hs.in_tx hp
    have hnext : (s.txIdx + 1).toNat < s.txLen.toNat := by bv_omega
    exact ⟨hlen, hnext, hrest⟩
  in_rx h := nomatch hp.symm.trans h

/-- The last transmit step enters RX with no byte received (R171). -/
theorem inv_sendLastByte {s : State} (hs : s.Inv) (hp : s.phase = .tx) : State.Inv { sendByte s with phase := .rx } where
  fifo_bounded := hs.fifo_bounded
  in_tx h := nomatch h
  in_rx _ := by
    obtain ⟨hlen, -, hrx, h7, h262⟩ := hs.in_tx hp
    have hroom : s.rxLen.toNat < s.rxExp.toNat := by rw [hrx]; exact Nat.lt_of_lt_of_le (by decide) h7
    exact ⟨hlen, h7, h262, hroom⟩

/-- A receive step that is not the last keeps RX_LEN below RX_EXP (R172). -/
theorem inv_receiveByte {s : State} {b : Byte} {rest : List Byte} (hs : s.Inv) (hp : s.phase = .rx)
    (hf : s.fifo = b :: rest) (hl : s.rxLen + 1 ≠ s.rxExp) : (receiveByte b rest s).Inv where
  fifo_bounded := by
    have hb := hs.fifo_bounded
    rw [hf] at hb
    exact Nat.le_of_succ_le hb
  in_tx h := nomatch hp.symm.trans h
  in_rx _ := by
    obtain ⟨hlen, h7, h262, hroom⟩ := hs.in_rx hp
    have hnext : (s.rxLen + 1).toNat < s.rxExp.toNat := by bv_omega
    exact ⟨hlen, h7, h262, hnext⟩

/-- No effect breaks the invariants: it leaves the block idle, touches nothing they speak of, or is a step of a
transaction. -/
theorem Effect.keeps_inv {s t : State} {e : Event} (H : Effect s e t) (hs : s.Inv) : t.Inv := by
  have hf := hs.fifo_bounded
  cases H with
  | started _ _ _ _ hl h7 h262 => exact inv_beginTx hs hl h7 h262
  | sent hp _ hl => exact inv_sendByte hs hp hl
  | sentLast hp => exact inv_sendLastByte hs hp
  | received _ _ hp hf hl => exact inv_receiveByte hs hp hf hl
  | delivered b _ hl => exact ⟨by simpa using hl, hs.in_tx, hs.in_rx⟩
  | receivedLast b rest hp hq hl =>
    rw [hq] at hf
    exact .of_idle rfl (Nat.le_of_succ_le hf)
  | lengths _ _ _ _ hi | buffers _ _ _ _ hi | encoded _ _ _ _ hi | validateShort _ hi | validated _ hi =>
    exact .of_idle hi hf
  | flushed _ hi => exact .of_idle hi (Nat.zero_le _)
  | failedStart | closed | timedOut => exact .of_idle rfl hf
  | reset => exact .of_idle rfl (Nat.zero_le _)
  | nothing | hostRead | refused | operand | crcCommand | cleared | dropped | link =>
    exact ⟨hf, hs.in_tx, hs.in_rx⟩

/-- Settles O46, by the case analysis over the effects of a step. -/
theorem stepKeepsInv : Obligations.StepKeepsInv := by
  intro s t hs H
  obtain ⟨a, d, he⟩ := effect_of_step H
  exact he.keeps_inv (hs.with_outside a d)

/-- Settles O45: power-on leaves the block idle with an empty FIFO. -/
theorem powerOnMeetsInv : Obligations.PowerOnMeetsInv := .of_idle rfl (Nat.zero_le _)

/-! ## What changes the wire trace, PHASE, DONE, the sticky flags and CRC -/

/-- A complete reception ends with OK or INVALID_FRAME (R172). -/
theorem receptionResult_mem (ok : Bool) : receptionResult ok ∈ [Result.ok, .invalidFrame, .connectionClosed] := by
  cases ok <;> simp [receptionResult]

/-- The two transmit steps append the byte at TX_IDX; no other effect touches the trace (R44, R171). -/
theorem Effect.wireOut_kept_or_sent {s t : State} {e : Event} (H : Effect s e t) :
    t.wireOut = s.wireOut ∨ (e = .engine ∧ s.phase = .tx ∧ s.linkOpen = true ∧
      t.wireOut = s.wireOut ++ [readTx s.txIdx.toNat s]) := by
  cases H with
  | sent hp hk | sentLast hp hk => exact .inr ⟨rfl, hp, hk, rfl⟩
  | _ => exact .inl rfl

/-- Settles O50: the trace after a step is that after its effect. -/
theorem onlyEngineAppendsToWire : Obligations.OnlyEngineAppendsToWire := by
  intro s t H
  obtain ⟨a, d, he⟩ := effect_of_step H
  exact he.wireOut_kept_or_sent

/-- PHASE leaves IDLE by an accepted XACT only, goes from TX to RX by the last transmit step, and returns to IDLE by a
`finish` of the engine or the line, or by reset (R26). -/
theorem Effect.phase_cases {s t : State} {e : Event} (H : Effect s e t) (hne : t.phase ≠ s.phase) :
    (s.phase = .idle ∧ t.phase = .tx ∧ s.linkOpen = true ∧ (s.txLen = 7 ∨ s.txLen = 8) ∧
      ∃ h, e = .host h (.writeReg 0 0x0005)) ∨
    (s.phase = .tx ∧ t.phase = .rx ∧ e = .engine ∧ s.linkOpen = true ∧ s.txIdx + 1 = s.txLen) ∨
    (s.phase = .tx ∧ t.phase = .idle ∧ e = .engine ∧ t.done = true ∧ t.result = .connectionClosed) ∨
    (s.phase = .rx ∧ t.phase = .idle ∧ e = .engine ∧ t.done = true ∧
      t.result ∈ [Result.ok, .invalidFrame, .connectionClosed]) ∨
    (s.phase = .rx ∧ t.phase = .idle ∧ e = .timeout ∧ t.done = true ∧ t.result = .readTimeout) ∨
    (t.phase = .idle ∧ e = .reset) := by
  cases H with
  | started h e hi hk hl => exact .inl ⟨hi, rfl, hk, hl, h, rfl⟩
  | sentLast hp hk hl => exact .inr (.inl ⟨hp, rfl, rfl, hk, hl⟩)
  | closed hb =>
    cases hp : s.phase with
    | idle => exact absurd hp hb
    | tx => exact .inr (.inr (.inl ⟨rfl, rfl, rfl, rfl, rfl⟩))
    | rx => exact .inr (.inr (.inr (.inl ⟨rfl, rfl, rfl, rfl, by simp⟩)))
  | receivedLast b rest hp =>
    exact .inr (.inr (.inr (.inl ⟨hp, rfl, rfl, rfl, receptionResult_mem _⟩)))
  | timedOut hp => exact .inr (.inr (.inr (.inr (.inl ⟨hp, rfl, rfl, rfl, rfl⟩))))
  | reset => exact .inr (.inr (.inr (.inr (.inr ⟨rfl, rfl⟩))))
  | failedStart _ _ hi => exact absurd hi.symm hne
  | _ => exact absurd rfl hne

/-- Settles O51, by the effects that change PHASE. -/
theorem phaseChangesOnlyByRule : Obligations.PhaseChangesOnlyByRule := by
  refine ⟨⟨rfl, rfl, rfl⟩, fun s t H hne => ?_⟩
  obtain ⟨a, d, he⟩ := effect_of_step H
  exact he.phase_cases hne

/-- DONE is set only where the block ends a transaction, and is then idle (R27, R170). -/
theorem Effect.done_set {s t : State} {e : Event} (H : Effect s e t) (hs : s.done = false) (ht : t.done = true) :
    (e = .engine ∨ e = .timeout ∨ ∃ h, e = .host h (.writeReg 0 0x0005)) ∧ t.phase = .idle := by
  cases H with
  | closed | receivedLast => exact ⟨.inl rfl, rfl⟩
  | timedOut => exact ⟨.inr (.inl rfl), rfl⟩
  | failedStart h => exact ⟨.inr (.inr ⟨h, rfl⟩), rfl⟩
  | started | cleared | reset => cases ht
  | _ => exact absurd (hs.symm.trans ht) Bool.false_ne_true

/-- DONE is cleared only by an accepted XACT, by CLEAR and by reset (R27). -/
theorem Effect.done_cleared {s t : State} {e : Event} (H : Effect s e t) (hs : s.done = true) (ht : t.done = false) :
    e = .reset ∨ (∃ h, e = .host h (.writeReg 0 0x0005)) ∨ (∃ h, e = .host h (.writeReg 0 0x0007)) := by
  cases H with
  | reset => exact .inl rfl
  | started h => exact .inr (.inl ⟨h, rfl⟩)
  | cleared h => exact .inr (.inr ⟨h, rfl⟩)
  | closed | receivedLast | timedOut | failedStart => cases ht
  | _ => exact absurd (ht.symm.trans hs) Bool.false_ne_true

/-- Settles O52, by the effects that set and that clear DONE. -/
theorem doneChangesOnlyByRule : Obligations.DoneChangesOnlyByRule := by
  intro s t H
  obtain ⟨a, d, he⟩ := effect_of_step H
  exact ⟨he.done_set, he.done_cleared⟩

/-- A refusal sets CMD_ERR and an overflow RX_OVF; only CLEAR and reset clear either (R29, R30). -/
theorem Effect.sticky_kept {s t : State} {e : Event} (H : Effect s e t) (hr : e ≠ .reset)
    (hc : ∀ h, e ≠ .host h (.writeReg 0 0x0007)) :
    (s.cmdErr = true → t.cmdErr = true) ∧ (s.rxOvf = true → t.rxOvf = true) := by
  cases H with
  | reset => exact absurd rfl hr
  | cleared h => exact absurd rfl (hc h)
  | refused => exact ⟨fun _ => rfl, id⟩
  | dropped => exact ⟨id, fun _ => rfl⟩
  | _ => exact ⟨id, id⟩

/-- Settles O53, by the effects that clear either flag. -/
theorem stickyFlagsStaySet : Obligations.StickyFlagsStaySet := by
  intro s t H hr hc
  obtain ⟨a, d, he⟩ := effect_of_step H
  exact he.sticky_kept hr hc

/-- Only the two CRC commands and reset write CRC (R34). -/
theorem Effect.crc_kept {s t : State} {e : Event} (H : Effect s e t) (hr : e ≠ .reset)
    (hc : ∀ h w, e = .host h (.writeReg 0 w) → w.toNat % 16 ≠ 1 ∧ w.toNat % 16 ≠ 2) : t.crc = s.crc := by
  cases H with
  | reset => exact absurd rfl hr
  | crcCommand h w v hw =>
    obtain ⟨h1, h2⟩ := hc h w rfl
    exact (hw.elim h1 h2).elim
  | _ => rfl

/-- Settles O54, by the effects that write CRC. -/
theorem onlyCrcCommandsWriteCrc : Obligations.OnlyCrcCommandsWriteCrc := by
  intro s t H hr hc
  obtain ⟨a, d, he⟩ := effect_of_step H
  exact he.crc_kept hr hc

end Sys2Proof.Machine
end

section
/-! PROOFS. STATUS bit by bit, what a link event leaves alone and what a refusal does (10_state.md R24, R31;
30_encoding.md R100). -/

namespace Sys2Proof.Machine

/-! ## STATUS bit by bit (R24) -/

theorem statusWord_getLsbD (s : State) {i : Nat} (hi : i < 16) :
    (statusWord s).getLsbD i = if i = 0 then s.busy else if i < 3 then s.phase.code.getLsbD (i - 1) else
      if i = 3 then s.done else if i = 4 then s.valid else if i = 5 then s.cmdErr else if i = 6 then s.rxOvf else
      if i = 7 then s.linkOpen else if i < 12 then s.result.code.getLsbD (i - 8) else false := by
  simp only [statusWord, packStatus, State.busy, BitVec.getLsbD_append, BitVec.getLsbD_ofBool]
  interval_cases i <;> simp

theorem statusWord_fields (s : State) : (statusWord s).extractLsb' 1 2 = s.phase.code ∧
    (statusWord s).extractLsb' 8 4 = s.result.code ∧ (statusWord s).extractLsb' 12 4 = 0#4 := by
  refine ⟨?_, ?_, ?_⟩
  all_goals
    apply BitVec.eq_of_getLsbD_eq
    intro i hi
    rw [BitVec.getLsbD_extractLsb', statusWord_getLsbD s (by omega)]
    interval_cases i <;> simp

theorem statusWord_and_not_mask (s : State) : statusWord s &&& ~~~0x0FFF#16 = 0#16 := by
  apply BitVec.eq_of_getLsbD_eq
  intro i hi
  rw [BitVec.getLsbD_and, statusWord_getLsbD s hi]
  interval_cases i <;> simp

theorem statusWord_setLink_false (s : State) : statusWord (setLink false s) = statusWord s &&& 0xFF7F#16 := by
  apply BitVec.eq_of_getLsbD_eq
  intro i hi
  rw [BitVec.getLsbD_and, statusWord_getLsbD _ hi, statusWord_getLsbD s hi]
  interval_cases i <;> simp [State.busy]

theorem statusWord_setLink_true (s : State) : statusWord (setLink true s) = statusWord s ||| 0x0080#16 := by
  apply BitVec.eq_of_getLsbD_eq
  intro i hi
  rw [BitVec.getLsbD_or, statusWord_getLsbD _ hi, statusWord_getLsbD s hi]
  interval_cases i <;> simp [State.busy]

theorem statusWord_refuse (c : RefusalCode) (s : State) : statusWord (refuse c s) = statusWord s ||| 0x0020#16 := by
  apply BitVec.eq_of_getLsbD_eq
  intro i hi
  rw [BitVec.getLsbD_or, statusWord_getLsbD _ hi, statusWord_getLsbD s hi]
  interval_cases i <;> simp [State.busy]

/-- Settles O38, from the bits of STATUS. -/
theorem statusPacksFlags : Obligations.StatusPacksFlags := by
  refine ⟨⟨rfl, rfl, rfl, rfl, rfl, rfl, rfl, rfl⟩, fun s => ?_⟩
  obtain ⟨hphase, hresult, htop⟩ := statusWord_fields s
  refine ⟨?_, hphase, ?_, ?_, ?_, ?_, ?_, hresult, htop⟩
  · rw [statusWord_getLsbD s (by decide), if_pos rfl, busy_iff]
  all_goals simp only [statusWord_getLsbD s, Nat.reduceLT, Nat.reduceEqDiff, OfNat.ofNat_ne_zero, if_true, if_false]

/-! ## The link (R31, 44_transaction.md R176) -/

theorem sameRegs_setLink (up : Bool) (s : State) : SameRegs [.status] s (setLink up s) := by
  intro r hr
  cases r with
  | status => simp at hr
  | _ => rfl

/-- A link event is `setLink`: no register but STATUS, and neither buffer, FIFO nor wire trace, sees it. -/
theorem unchanged_setLink (up : Bool) (s : State) : SameRegs [.status] s (setLink up s) ∧ SameTx s (setLink up s) ∧
    SameRx s (setLink up s) ∧ (setLink up s).fifo = s.fifo ∧ (setLink up s).wireOut = s.wireOut ∧
    SameOutside s (setLink up s) :=
  ⟨sameRegs_setLink up s, fun _ => rfl, fun _ => rfl, rfl, rfl, rfl, rfl, rfl⟩

/-- Settles O28: each link event is enabled in the other state of the link, and is `setLink`. -/
theorem linkChangesOnlyLink : Obligations.LinkChangesOnlyLink := by
  refine fun s => ⟨rfl, rfl, fun hk => ?_, fun hk => ?_⟩
  · exact ⟨setLink false s, perform_enabled hk, rfl, statusWord_setLink_false s, unchanged_setLink false s⟩
  · have hen : enabled .linkUp s = true := by rw [enabled, hk]; rfl
    exact ⟨setLink true s, perform_enabled hen, rfl, statusWord_setLink_true s, unchanged_setLink true s⟩

/-! ## Refusals (30_encoding.md R100) -/

theorem sameRegs_refuse (c : RefusalCode) (s : State) : SameRegs [.status, .cmdErr] s (refuse c s) := by
  intro r hr
  cases r with
  | status | cmdErr => simp at hr
  | _ => rfl

theorem refusedWith_refuse (c : RefusalCode) (s : State) : RefusedWith c s (.next (refuse c s)) :=
  ⟨refuse c s, rfl, rfl, statusWord_refuse c s, sameRegs_refuse c s, fun _ => rfl, fun _ => rfl, ⟨rfl, rfl, rfl⟩,
    rfl, rfl, rfl⟩

end Sys2Proof.Machine
end

section
/-! PROOFS. The register file as a host reads and writes it (10_state.md R21 to R23, R50, R56). -/

namespace Sys2Proof.Machine

/-! ## Register fields in 16-bit words (R22) -/

/-- Storing the low `n` bits of a word and reading them zero-extended masks the word. -/
theorem setWidth_setWidth_eq_and (v : Word) (n : Nat) :
    (v.setWidth n).setWidth 16 = v &&& BitVec.ofNat 16 (2 ^ n - 1) := by
  apply BitVec.eq_of_getLsbD_eq
  intro i hi
  simp only [BitVec.getLsbD_setWidth, BitVec.getLsbD_and, BitVec.getLsbD_ofNat, Nat.testBit_two_pow_sub_one, hi,
    decide_true, Bool.true_and, Bool.and_comm]

/-- A zero-extended field has no bit above its width. -/
theorem setWidth_and_not_mask {n : Nat} (x : BitVec n) (hn : n ≤ 16) :
    x.setWidth 16 &&& ~~~BitVec.ofNat 16 (2 ^ n - 1) = 0#16 := by
  have hx : x.setWidth 16 = x.setWidth 16 &&& BitVec.ofNat 16 (2 ^ n - 1) := by
    rw [← setWidth_setWidth_eq_and, BitVec.setWidth_setWidth_of_le x hn, BitVec.setWidth_eq]
  rw [hx, BitVec.and_assoc]
  simp

/-! ## Host accesses to registers -/

theorem perform_readReg {h : Nat} (hh : h < Config.nHosts) (i : BitVec 5) (s : State) :
    perform (.host h (.readReg i)) s = .next (returnRead h (readSlot i s) s) :=
  perform_enabled (decide_eq_true hh)

theorem readSlot_index (r : Reg) (s : State) : readSlot r.index s = readReg r s := by
  rw [readSlot, Reg.ofIndex_index]

theorem readSlot_unnamed {i : BitVec 5} (hi : 0x14 ≤ i.toNat) (s : State) : readSlot i s = 0 := by
  rw [readSlot, Reg.ofIndex_eq_none.mpr hi]

theorem perform_writeReg {h : Nat} (hh : h < Config.nHosts) {r : Reg} (hr : r ≠ .cmd) (v : Word) (s : State) :
    perform (.host h (.writeReg r.index v)) s = .next (writeReg r v s) := by
  have hen : enabled (.host h (.writeReg r.index v)) s = true := decide_eq_true hh
  rw [perform_enabled hen, happen, hostAccess, Reg.ofIndex_index]
  split
  · rename_i hc
    exact absurd (Option.some.inj hc) hr
  · rename_i q _ hq
    rw [Option.some.inj hq]
  · rename_i hn
    cases hn

theorem perform_writeReg_unnamed {h : Nat} (hh : h < Config.nHosts) {i : BitVec 5} (hi : 0x14 ≤ i.toNat) (v : Word)
    (s : State) : perform (.host h (.writeReg i v)) s = .next s := by
  have hen : enabled (.host h (.writeReg i v)) s = true := decide_eq_true hh
  rw [perform_enabled hen, happen, hostAccess, Reg.ofIndex_eq_none.mpr hi]

/-- The registers that read differently once a register is written: itself, and DATA_AT, which DATA_IDX selects (R50). -/
def seenIn : Reg → List Reg
  | .dataIdx => [.dataIdx, .dataAt]
  | r => [r]

/-- An accepted write shows in no other register; the two length registers accept one only while idle (R22). -/
theorem sameRegs_writeReg {r : Reg} {s : State} (v : Word) (hb : r = .txLen ∨ r = .rxLen → s.busy = false) :
    SameRegs (seenIn r) s (writeReg r v s) := by
  intro q hq
  cases r with
  | txLen | rxLen =>
    rw [writeReg, whenIdle_idle (hb (by simp))]
    cases q <;> simp [seenIn, readReg, readRx, statusWord] at hq ⊢
  | encAddr | encSub | encData | dataIdx =>
    -- `q` is a register the write shows in, which `hq` excludes, or reads a field the write leaves alone
    cases q <;> simp [seenIn, writeReg, readReg, readRx, statusWord] at hq ⊢
  | _ => rfl

theorem onlyRegs_writeReg {r : Reg} {s : State} (v : Word) (hb : r = .txLen ∨ r = .rxLen → s.busy = false) :
    OnlyRegs (seenIn r) s (writeReg r v s) := by
  refine ⟨sameRegs_writeReg v hb, ?_⟩
  cases r with
  | txLen | rxLen =>
    rw [writeReg, whenIdle_idle (hb (by simp))]
    exact ⟨fun _ => rfl, fun _ => rfl, ⟨rfl, rfl, rfl⟩, rfl, rfl, rfl⟩
  | _ => exact ⟨fun _ => rfl, fun _ => rfl, ⟨rfl, rfl, rfl⟩, rfl, rfl, rfl⟩

/-- An accepted write as the host sees it, for the bits `m` the register uses. -/
theorem perform_writeReg_stores {h : Nat} (hh : h < Config.nHosts) {r : Reg} (hr : r ≠ .cmd) {v m : Word} {s : State}
    (hb : r = .txLen ∨ r = .rxLen → s.busy = false) (hm : readReg r (writeReg r v s) = v &&& m) :
    ∃ t, perform (.host h (.writeReg r.index v)) s = .next t ∧ readReg r t = v &&& m ∧ OnlyRegs (seenIn r) s t :=
  ⟨writeReg r v s, perform_writeReg hh hr v s, hm, onlyRegs_writeReg v hb⟩

theorem writeReg_length_busy {r : Reg} (hr : r = .txLen ∨ r = .rxLen) {s : State} (hb : s.busy = true) (v : Word) :
    writeReg r v s = refuse .busy s := by
  rcases hr with rfl | rfl <;> rw [writeReg, whenIdle_busy hb]

theorem readReg_writeReg_txLen {s : State} (hb : s.busy = false) (v : Word) :
    readReg .txLen (writeReg .txLen v s) = v &&& 0x000F#16 := by
  rw [writeReg, whenIdle_idle hb]
  exact setWidth_setWidth_eq_and v 4

theorem readReg_writeReg_rxLen {s : State} (hb : s.busy = false) (v : Word) :
    readReg .rxLen (writeReg .rxLen v s) = v &&& 0x01FF#16 := by
  rw [writeReg, whenIdle_idle hb]
  exact setWidth_setWidth_eq_and v 9

/-- A length register is refused while busy and stores its used bits while idle (R38, R39). -/
theorem perform_writeReg_length {h : Nat} (hh : h < Config.nHosts) {r : Reg} (hr : r = .txLen ∨ r = .rxLen) {v m : Word}
    {s : State} (hm : s.busy = false → readReg r (writeReg r v s) = v &&& m) :
    (s.busy = true → RefusedWith .busy s (perform (.host h (.writeReg r.index v)) s)) ∧
      (s.busy = false → ∃ t, perform (.host h (.writeReg r.index v)) s = .next t ∧ readReg r t = v &&& m ∧
        OnlyRegs (seenIn r) s t) := by
  have hc : r ≠ .cmd := by rcases hr with rfl | rfl <;> decide
  refine ⟨fun hb => ?_, fun hb => perform_writeReg_stores hh hc (fun _ => hb) (hm hb)⟩
  rw [perform_writeReg hh hc, writeReg_length_busy hr hb]
  exact refusedWith_refuse .busy s

theorem writeReg_readOnly {r : Reg} (hr : r ∉ [.encAddr, .encSub, .encData, .dataIdx, .txLen, .rxLen]) (v : Word)
    (s : State) : writeReg r v s = s := by
  cases r with
  | encAddr | encSub | encData | dataIdx | txLen | rxLen => simp at hr
  | _ => rfl

/-- Settles O36: no register has an index of 0x14 or more. -/
theorem reservedSlotsReadZero : Obligations.ReservedSlotsReadZero := by
  intro h i v s hh hi
  refine ⟨?_, perform_writeReg_unnamed hh hi v s⟩
  rw [perform_readReg hh, readSlot_unnamed hi]
  rfl

/-- Settles O35: a named slot reads its register, each register its field zero-extended. -/
theorem registerReadsAreZeroExtended : Obligations.RegisterReadsAreZeroExtended := by
  intro h s hh
  refine ⟨fun p hp => ?slots, rfl, ?_, rfl, rfl, ?_, ?_, ?_, ?_, ?_, ?_, rfl, rfl, fun hlen => ?count, ?_, ?widths⟩
  case slots =>
    have hi : p.1 = p.2.index := by revert p; decide
    rw [hi, perform_readReg hh, readSlot_index]
    rfl
  case count => exact Nat.mod_eq_of_lt (by omega)
  case widths =>
    simp only [List.forall_mem_cons, List.not_mem_nil, false_imp_iff, implies_true, and_true]
    refine ⟨statusWord_and_not_mask s, ?_, ?_, ?_, ?_, ?_, ?_, ?_, ?_, ?_, ?_, ?_, ?_⟩
    all_goals exact setWidth_and_not_mask _ (by decide)
  all_goals exact BitVec.toNat_setWidth_of_le (by decide)

/-- Settles O34, by what a host sees of an accepted write, of one to a length register, and of one to a register it cannot
write. -/
theorem registerWritesStoreUsedBits : Obligations.RegisterWritesStoreUsedBits := by
  intro h v s hh
  refine ⟨?_, ?_, ?_, fun i hi => ?_⟩
  · simp only [List.forall_mem_cons, List.not_mem_nil, false_imp_iff, implies_true, and_true]
    refine ⟨?_, ?_, ?_⟩
    · exact perform_writeReg_stores (r := .encAddr) hh (by decide) (by simp) BitVec.and_allOnes.symm
    · exact perform_writeReg_stores (r := .encSub) hh (by decide) (by simp) (setWidth_setWidth_eq_and v 8)
    · exact perform_writeReg_stores (r := .encData) hh (by decide) (by simp) (setWidth_setWidth_eq_and v 8)
  · exact perform_writeReg_stores (r := .dataIdx) hh (by decide) (by simp) (setWidth_setWidth_eq_and v 8)
  · simp only [List.forall_mem_cons, List.not_mem_nil, false_imp_iff, implies_true, and_true]
    exact ⟨perform_writeReg_length hh (.inl rfl) fun hb => readReg_writeReg_txLen hb v,
      perform_writeReg_length hh (.inr rfl) fun hb => readReg_writeReg_rxLen hb v⟩
  · have hro : ∃ r ∈ Reg.all, r.index = i ∧ r ≠ .cmd ∧
        r ∉ [.encAddr, .encSub, .encData, .dataIdx, .txLen, .rxLen] := by revert i; decide
    obtain ⟨r, -, rfl, hc, hr⟩ := hro
    rw [perform_writeReg hh hc, writeReg_readOnly hr]

end Sys2Proof.Machine
end

section
/-! PROOFS. The two buffers as a host reads and writes them (20_memory.md R61). -/

namespace Sys2Proof.Machine

/-! ## What an accepted write does -/

/-- The effect of an accepted write to `TxBuf[i]`. -/
def storeTx (i : Nat) (b : Byte) (s : State) : State := { s with txBuf := writeBuf s.txBuf i b }

/-- The effect of an accepted write to `RxBuf[i]`. -/
def storeRx (i : Nat) (b : Byte) (s : State) : State := { s with rxBuf := writeBuf s.rxBuf i b }

section
variable {i j : Nat} (b : Byte) (s : State)

theorem readTx_storeTx_same (hi : i < 8) : readTx i (storeTx i b s) = b := readBuf_writeBuf_same s.txBuf i b hi

theorem readRx_storeRx_same (hi : i < 262) : readRx i (storeRx i b s) = b := readBuf_writeBuf_same s.rxBuf i b hi

theorem readTx_storeTx_other (hj : j ≠ i) : readTx j (storeTx i b s) = readTx j s :=
  readBuf_writeBuf_other s.txBuf i j b hj.symm

theorem readRx_storeRx_other (hj : j ≠ i) : readRx j (storeRx i b s) = readRx j s :=
  readBuf_writeBuf_other s.rxBuf i j b hj.symm

theorem storeTx_outside (hi : 8 ≤ i) : storeTx i b s = s := by
  rw [storeTx, writeBuf_outside s.txBuf i b hi]

theorem storeRx_outside (hi : 262 ≤ i) : storeRx i b s = s := by
  rw [storeRx, writeBuf_outside s.rxBuf i b hi]

end

/-- No register shows a byte of `TxBuf`. -/
theorem sameRegs_storeTx (i : Nat) (b : Byte) (s : State) : SameRegs [] s (storeTx i b s) := by
  intro r _
  cases r <;> rfl

/-- The registers that show a byte of `RxBuf` are the views of 43_decode.md R150 to R154. -/
theorem sameRegs_storeRx (i : Nat) (b : Byte) (s : State) :
    SameRegs [.rxAddr, .rxFn, .rxSub, .rxDlen, .dataAt] s (storeRx i b s) := by
  intro r hr
  cases r with
  | rxAddr | rxFn | rxSub | rxDlen | dataAt => simp at hr
  | _ => rfl

/-! ## Host accesses to buffers -/

section
variable {h : Nat} (hh : h < Config.nHosts) (i : Nat) (b : Byte) (s : State)
include hh

theorem perform_readTx : perform (.host h (.readTx i)) s = .next (returnRead h ((readTx i s).setWidth 16) s) :=
  perform_enabled (decide_eq_true hh)

theorem perform_readRx : perform (.host h (.readRx i)) s = .next (returnRead h ((readRx i s).setWidth 16) s) :=
  perform_enabled (decide_eq_true hh)

theorem perform_writeTx : perform (.host h (.writeTx i b)) s = .next (whenIdle (storeTx i b) s) :=
  perform_enabled (decide_eq_true hh)

theorem perform_writeRx : perform (.host h (.writeRx i b)) s = .next (whenIdle (storeRx i b) s) :=
  perform_enabled (decide_eq_true hh)

end

theorem refusedWith_whenIdle {s : State} (hb : s.busy = true) (f : State → State) :
    RefusedWith .busy s (.next (whenIdle f s)) := by
  rw [whenIdle_busy hb]
  exact refusedWith_refuse .busy s

/-- Settles O37: a read is `returnRead`, a write `storeTx` or `storeRx` while idle and a refusal while busy. -/
theorem bufferAccessByIndex : Obligations.BufferAccessByIndex := by
  intro h i b s hh
  refine ⟨perform_readTx hh i s, perform_readRx hh i s, readBuf_outside s.txBuf i, readBuf_outside s.rxBuf i, ?_⟩
  rw [perform_writeTx hh, perform_writeRx hh]
  refine ⟨fun hb => ⟨refusedWith_whenIdle hb _, refusedWith_whenIdle hb _⟩, fun hb => ?_⟩
  rw [whenIdle_idle hb, whenIdle_idle hb]
  constructor
  · exact ⟨storeTx i b s, rfl, readTx_storeTx_same b s, fun _ => readTx_storeTx_other b s, storeTx_outside b s,
      sameRegs_storeTx i b s, fun _ => rfl, ⟨rfl, rfl, rfl⟩, rfl, rfl, rfl⟩
  · exact ⟨storeRx i b s, rfl, readRx_storeRx_same b s, fun _ => readRx_storeRx_other b s, storeRx_outside b s,
      sameRegs_storeRx i b s, fun _ => rfl, ⟨rfl, rfl, rfl⟩, rfl, rfl, rfl⟩

end Sys2Proof.Machine
end

section
/-! PROOFS. The command-word decoder field by field and the words of the instructions (30_encoding.md R82, R90 to R93,
R101). -/

namespace Sys2Proof

/-! ## The fields of a word (R90) -/

section
variable (w : Word)

theorem highField_append_opField : highField w ++ opField w = w := by
  have h : highField w ++ opField w = w.extractLsb' 0 16 :=
    BitVec.extractLsb'_append_extractLsb'_eq_extractLsb' (x := w) rfl
  rw [h, BitVec.extractLsb'_eq_self]

theorem byteField_append_fnField : byteField w ++ fnField w = highField w :=
  BitVec.extractLsb'_append_extractLsb'_eq_extractLsb' (x := w) rfl

theorem topField_append_pField : topField w ++ BitVec.ofBool (pField w) = byteField w := by
  have hp : BitVec.ofBool (pField w) = w.extractLsb' 8 1 := by
    apply BitVec.eq_of_getLsbD_eq
    intro i hi
    simp [pField, show i = 0 by omega]
  rw [hp]
  exact BitVec.extractLsb'_append_extractLsb'_eq_extractLsb' (x := w) rfl

/-- A word put together from its fields in format F1 (R93). -/
theorem formatF1_of_fields : byteField w ++ fnField w ++ opField w = w := by
  rw [byteField_append_fnField, highField_append_opField]

/-- A word put together from its fields in format F2 (R92). -/
theorem formatF2_of_fields : topField w ++ BitVec.ofBool (pField w) ++ fnField w ++ opField w = w := by
  rw [topField_append_pField, formatF1_of_fields]

theorem fnField_toNat : (fnField w).toNat = w.toNat / 16 % 16 := by simp [fnField, Nat.shiftRight_eq_div_pow]

theorem topField_toNat : (topField w).toNat = w.toNat / 512 % 128 := by simp [topField, Nat.shiftRight_eq_div_pow]

end

section
variable {w : Word}

theorem opField_eq_iff {op : BitVec 4} : opField w = op ↔ w.toNat % 16 = op.toNat := by
  rw [← BitVec.toNat_inj, Machine.opField_toNat]

theorem fnField_eq_iff {f : BitVec 4} : fnField w = f ↔ w.toNat / 16 % 16 = f.toNat := by
  rw [← BitVec.toNat_inj, fnField_toNat]

theorem topField_eq_iff {t : BitVec 7} : topField w = t ↔ w.toNat / 512 = t.toNat := by
  have hw := w.isLt
  rw [← BitVec.toNat_inj, topField_toNat, Nat.mod_eq_of_lt (by omega)]

theorem highField_eq_iff {h : BitVec 12} : highField w = h ↔ w.toNat / 16 = h.toNat := by
  have hw := w.isLt
  rw [← BitVec.toNat_inj, Machine.highField_toNat, Nat.mod_eq_of_lt (by omega)]

/-- The bits of a field that a mask keeps whole. -/
theorem extractLsb'_of_masked {m b : Word} (h : w &&& m = b) (i n : Nat) (hm : m.extractLsb' i n = BitVec.allOnes n) :
    w.extractLsb' i n = b.extractLsb' i n := by
  rw [← h, BitVec.extractLsb'_and, hm, BitVec.and_allOnes]

end

@[simp] theorem opField_append (hi : BitVec 12) (op : BitVec 4) : opField (hi ++ op) = op :=
  BitVec.extractLsb'_append_eq_right

@[simp] theorem highField_append (hi : BitVec 12) (op : BitVec 4) : highField (hi ++ op) = hi :=
  BitVec.extractLsb'_append_eq_left

theorem fields_of_formatF1 (b : Byte) (f : BitVec 4) (op : BitVec 4) :
    byteField (b ++ f ++ op) = b ∧ fnField (b ++ f ++ op) = f := by
  constructor
  · rw [byteField, BitVec.extractLsb'_append_eq_of_le (by decide)]
    exact BitVec.extractLsb'_append_eq_left
  · rw [fnField, BitVec.extractLsb'_append_eq_of_le (by decide)]
    exact BitVec.extractLsb'_append_eq_right

/-- The `fn` field of an ENCODE word holds the low half of the function code, whose high half is 0 (R82, R92). -/
theorem extractLsb'_code_of_setWidth {f : BitVec 4} {fn : FnCode} (h : f.setWidth 8 = fn.code) :
    fn.code.extractLsb' 0 4 = f := by
  rw [← h]
  apply BitVec.eq_of_toNat_eq
  have := f.isLt
  simp
  omega

/-! ## What each word decodes to (R100) -/

/-- A reserved bit is 1: `w[7:4]` of CRC.BYTE, `w[15:9]` of ENCODE, `w[15:4]` of the commands without operands (R102). -/
def ReservedBitsSet (w : Word) : Prop :=
  (opField w = 2 ∧ fnField w ≠ 0#4) ∨ (opField w = 3 ∧ topField w ≠ 0#7) ∨
    (opField w ∈ [1, 4, 5, 6, 7] ∧ highField w ≠ 0#12)

section
variable {w : Word}

theorem reservedBitsSet_iff :
    ReservedBitsSet w ↔ (w.toNat % 16 ∈ [1, 4, 5, 6, 7] ∧ w.toNat / 16 ≠ 0) ∨
      (w.toNat % 16 = 2 ∧ w.toNat / 16 % 16 ≠ 0) ∨ (w.toNat % 16 = 3 ∧ w.toNat / 512 ≠ 0) := by
  simp [ReservedBitsSet, opField_eq_iff, fnField_eq_iff, topField_eq_iff, highField_eq_iff, or_comm, or_left_comm]

theorem decodeCommand_reservedOp0 (ho : opField w = 0) : decodeCommand w = .ok (.reservedOp0 (highField w)) := by
  rw [decodeCommand, if_pos ho]

theorem decodeCommand_reservedOp8F (ho : 8 ≤ (opField w).toNat) :
    decodeCommand w = .ok (.reservedOp8F (opField w) (highField w)) := by
  have h0 : opField w ≠ 0 := by
    intro h
    rw [h] at ho
    exact absurd ho (by decide)
  rw [decodeCommand, if_neg h0, if_pos ho]

theorem decodeCommand_crcByte (ho : opField w = 2) (hf : fnField w = 0) :
    decodeCommand w = .ok (.crcByte (byteField w)) := by
  simp [decodeCommand, ho, hf]

theorem decodeCommand_encodeInstr {fn : FnCode} (ho : opField w = 3) (ht : topField w = 0)
    (hf : (fnField w).setWidth 8 = fn.code) : decodeCommand w = .ok (encodeInstr fn (pField w)) := by
  simp [decodeCommand, ho, ht, hf]

theorem decodeCommand_encodeF2 (fn : FnCode) (p : Bool) : decodeCommand (encodeF2 fn p) = .ok (encodeInstr fn p) := by
  cases fn <;> cases p <;> rfl

theorem decodeCommand_reservedBits (h : ReservedBitsSet w) : decodeCommand w = .error .reservedBits := by
  rcases h with ⟨ho, hf⟩ | ⟨ho, ht⟩ | ⟨ho, hh⟩
  · simp [decodeCommand, ho, hf]
  · simp [decodeCommand, ho, ht]
  · simp only [List.mem_cons, List.not_mem_nil, or_false] at ho
    rcases ho with ho | ho | ho | ho | ho <;> simp [decodeCommand, ho, hh]

end

/-- The commands without operands and their words (R91). -/
def plainCommands : List (Word × Instr) :=
  [(0x0001, .crcInit), (0x0004, .validate), (0x0005, .xact), (0x0006, .flush), (0x0007, .clear)]

/-- `Decoding w d`: everything the decoder can answer to `w`, with the fields that make it so (R100 to R102). -/
inductive Decoding (w : Word) : Except CommandReject Instr → Prop where
  | reservedOp0 (ho : opField w = 0) : Decoding w (.ok (.reservedOp0 (highField w)))
  | reservedOp8F (ho : 8 ≤ (opField w).toNat) : Decoding w (.ok (.reservedOp8F (opField w) (highField w)))
  | crcByte (ho : opField w = 2) (hf : fnField w = 0) : Decoding w (.ok (.crcByte (byteField w)))
  | encodeInstr (fn : FnCode) (ho : opField w = 3) (ht : topField w = 0) (hf : (fnField w).setWidth 8 = fn.code) :
      Decoding w (.ok (encodeInstr fn (pField w)))
  | plain (i : Instr) (hi : (w, i) ∈ plainCommands) : Decoding w (.ok i)
  | reservedBits (h : ReservedBitsSet w) : Decoding w (.error .reservedBits)
  | badFunction (ho : opField w = 3) (ht : topField w = 0) (hf : ∀ fn : FnCode, (fnField w).setWidth 8 ≠ fn.code) :
      Decoding w (.error .badFunction)

theorem decoding (w : Word) : Decoding w (decodeCommand w) := by
  unfold decodeCommand
  split
  · exact .reservedOp0 ‹_›
  split
  · exact .reservedOp8F ‹_›
  rename_i n0 n8
  split
  · rename_i ho
    split
    · exact .reservedBits (.inl ⟨ho, ‹_›⟩)
    · exact .crcByte ho (not_not.mp ‹_›)
  rename_i n2
  split
  · rename_i ho
    split
    · exact .reservedBits (.inr (.inl ⟨ho, ‹_›⟩))
    rename_i ht
    split
    · exact .encodeInstr _ ho (not_not.mp ht) (FnCode.code_of_ofCode ‹_›)
    · rename_i hn
      refine .badFunction ho (not_not.mp ht) fun fn hf => ?_
      rw [hf, FnCode.ofCode_code] at hn
      cases hn
  rename_i n3
  have ho : opField w ∈ [1, 4, 5, 6, 7] := by
    generalize opField w = op at n0 n8 n2 n3
    revert op
    decide
  split
  · exact .reservedBits (.inr (.inr ⟨ho, ‹_›⟩))
  rename_i hh
  have hw {op : BitVec 4} (h : opField w = op) : w = op.setWidth 16 := Machine.word_of_fields h (not_not.mp hh)
  simp only [List.mem_cons, List.not_mem_nil, or_false] at ho
  rcases ho with ho | ho | ho | ho | ho
  all_goals
    rw [hw ho]
    exact .plain _ (by decide)

/-! ## Both kinds of word -/

theorem decode_command_eq_ok {w : Word} {i : Instr} : decode (.command w) = .ok i ↔ decodeCommand w = .ok i := by
  cases h : decodeCommand w <;> simp [decode, h, Except.mapError]

theorem decode_wire_eq_ok {b : Byte} {i : Instr} :
    decode (.wire b) = .ok i ↔ ∃ fn : FnCode, b = fn.code ∧ i = frameInstr fn := by
  constructor
  · intro h
    cases hb : FnCode.ofCode b with
    | none => simp [decode, decodeWire, hb, Except.mapError] at h
    | some fn =>
      simp only [decode, decodeWire, hb, Except.mapError, Except.ok.injEq] at h
      exact ⟨fn, FnCode.code_of_ofCode hb, h.symm⟩
  · rintro ⟨fn, rfl, rfl⟩
    simp [decode, decodeWire, Except.mapError]

theorem encode_frameInstr (fn : FnCode) : encode (frameInstr fn) = .wire fn.code := by cases fn <;> rfl

theorem encode_encodeInstr (fn : FnCode) (p : Bool) : encode (encodeInstr fn p) = .command (encodeF2 fn p) := by
  cases fn <;> rfl

/-- Settles O1: the fields of each encoded word select its own row, operands included. -/
theorem decodeOfEncodeIsInstruction : Obligations.DecodeOfEncodeIsInstruction := by
  intro i hi
  cases i with
  | crcByte b =>
    obtain ⟨hb, hf⟩ := fields_of_formatF1 b 0#4 2#4
    have hd := decodeCommand_crcByte (opField_append (b ++ 0#4) 2#4) hf
    rw [hb] at hd
    exact decode_command_eq_ok.mpr hd
  | encRead p => exact decode_command_eq_ok.mpr (decodeCommand_encodeF2 .read p)
  | encWrite p => exact decode_command_eq_ok.mpr (decodeCommand_encodeF2 .write p)
  | encControl p => exact decode_command_eq_ok.mpr (decodeCommand_encodeF2 .control p)
  | encRequest p => exact decode_command_eq_ok.mpr (decodeCommand_encodeF2 .request p)
  | reservedOp0 hh =>
    have hd := decodeCommand_reservedOp0 (opField_append hh 0)
    rw [highField_append] at hd
    exact decode_command_eq_ok.mpr hd
  | reservedOp8F op hh =>
    have ho : 8 ≤ (opField (hh ++ op)).toNat := by
      rw [opField_append]
      exact of_decide_eq_true hi
    have hd := decodeCommand_reservedOp8F ho
    rw [opField_append, highField_append] at hd
    exact decode_command_eq_ok.mpr hd
  | crcInit | validate | xact | flush | clear => rfl
  | frameRead | frameWrite | frameControl | frameRequest => rfl

/-- The word of a decoded command is its fields put together again. -/
theorem encode_of_decodeCommand {w : Word} {i : Instr} (h : decodeCommand w = .ok i) :
    i.wf = true ∧ encode i = .command w := by
  have hd := decoding w
  rw [h] at hd
  cases hd with
  | reservedOp0 ho =>
    have hw := highField_append_opField w
    rw [ho] at hw
    exact ⟨rfl, congrArg InstrWord.command hw⟩
  | reservedOp8F ho =>
    exact ⟨decide_eq_true ho, congrArg InstrWord.command (highField_append_opField w)⟩
  | crcByte ho hf =>
    have hw := formatF1_of_fields w
    rw [ho, hf] at hw
    exact ⟨rfl, congrArg InstrWord.command hw⟩
  | encodeInstr fn ho ht hf =>
    have hw := formatF2_of_fields w
    rw [ho, ht, ← extractLsb'_code_of_setWidth hf] at hw
    exact ⟨by cases fn <;> rfl, (encode_encodeInstr fn _).trans (congrArg InstrWord.command hw)⟩
  | plain _ hi =>
    have hp : ∀ q ∈ plainCommands, q.2.wf = true ∧ encode q.2 = .command q.1 := by decide
    exact hp _ hi

/-- Settles O2, from the fields of the word. -/
theorem encodeOfDecodeIsWord : Obligations.EncodeOfDecodeIsWord := by
  intro w i h
  cases w with
  | command w => exact encode_of_decodeCommand (decode_command_eq_ok.mp h)
  | wire b =>
    obtain ⟨fn, rfl, rfl⟩ := decode_wire_eq_ok.mp h
    exact ⟨by cases fn <;> rfl, encode_frameInstr fn⟩

/-! ## The opcode table (R91) -/

theorem rowMatch (i : Instr) : Laws.RowMatch.Statement i := by
  cases i with
  | crcInit => exact Laws.RowMatch.crcInit
  | crcByte b => exact Laws.RowMatch.crcByte b
  | encRead p => exact Laws.RowMatch.encRead p
  | encWrite p => exact Laws.RowMatch.encWrite p
  | encControl p => exact Laws.RowMatch.encControl p
  | encRequest p => exact Laws.RowMatch.encRequest p
  | validate => exact Laws.RowMatch.validate
  | xact => exact Laws.RowMatch.xact
  | flush => exact Laws.RowMatch.flush
  | clear => exact Laws.RowMatch.clear
  | reservedOp0 hi => exact Laws.RowMatch.reservedOp0 hi
  | reservedOp8F op hi => exact Laws.RowMatch.reservedOp8F op hi
  | frameRead => exact Laws.RowMatch.frameRead
  | frameWrite => exact Laws.RowMatch.frameWrite
  | frameControl => exact Laws.RowMatch.frameControl
  | frameRequest => exact Laws.RowMatch.frameRequest

theorem masked_of_decodeCommand {w : Word} {i : Instr} {r : OpcodeRow} (hd : decodeCommand w = .ok i)
    (hr : i.row = some r) : w &&& r.mask = r.bits := by
  obtain ⟨hwf, he⟩ := encode_of_decodeCommand hd
  have hm := rowMatch i hwf
  rw [he] at hm
  obtain ⟨r', hr', hb⟩ := hm
  rw [hr] at hr'
  cases hr'
  exact hb

section
variable {w : Word}

theorem decodeCommand_of_wholeMask {b : Word} (h : w &&& 0xFFFF = b) : decodeCommand w = decodeCommand b := by
  rw [show w = b from BitVec.and_allOnes.symm.trans h]

theorem decodeCommand_of_crcByteRow (h : w &&& 0x00FF = 0x0002) : decodeCommand w = .ok (.crcByte (byteField w)) :=
  decodeCommand_crcByte (extractLsb'_of_masked h 0 4 (by decide)) (extractLsb'_of_masked h 4 4 (by decide))

theorem decodeCommand_of_encodeRow {fn : FnCode} (h : w &&& 0xFEFF = encodeF2 fn false) :
    decodeCommand w = .ok (encodeInstr fn (pField w)) := by
  have ho := extractLsb'_of_masked h 0 4 (by decide)
  have hf := extractLsb'_of_masked h 4 4 (by decide)
  have ht := extractLsb'_of_masked h 9 7 (by decide)
  refine decodeCommand_encodeInstr (ho.trans ?_) (ht.trans ?_) ((congrArg (BitVec.setWidth 8) hf).trans ?_) <;>
    cases fn <;> rfl

theorem decodeCommand_of_op0Row (h : w &&& 0x000F = 0x0000) :
    decodeCommand w = .ok (.reservedOp0 (highField w)) :=
  decodeCommand_reservedOp0 (extractLsb'_of_masked h 0 4 (by decide))

theorem decodeCommand_of_op8FRow (h : w &&& 0x0008 = 0x0008) :
    decodeCommand w = .ok (.reservedOp8F (opField w) (highField w)) := by
  have hm : opField w &&& 8#4 = 8#4 :=
    (BitVec.extractLsb'_and (x := w) (y := 0x0008#16)).symm.trans (congrArg opField h)
  have h8 : ∀ op : BitVec 4, op &&& 8#4 = 8#4 → 8 ≤ op.toNat := by decide
  exact decodeCommand_reservedOp8F (h8 _ hm)

end

/-- Settles O3: a decoded word is the encoding of its instruction, which its row matches; and the mask of a row fixes the
fields that the decoder looks at. -/
theorem decoderAgreesWithOpcodeTable : Obligations.DecoderAgreesWithOpcodeTable := by
  refine fun w => ⟨fun i r => masked_of_decodeCommand, ?_⟩
  simp only [opcodeRows, List.forall_mem_cons, List.not_mem_nil, false_imp_iff, implies_true, and_true]
  refine ⟨fun h => ⟨_, decodeCommand_of_wholeMask h, rfl⟩, fun h => ⟨_, decodeCommand_of_crcByteRow h, rfl⟩,
    fun h => ⟨_, decodeCommand_of_encodeRow (fn := .read) h, rfl⟩,
    fun h => ⟨_, decodeCommand_of_encodeRow (fn := .write) h, rfl⟩,
    fun h => ⟨_, decodeCommand_of_encodeRow (fn := .control) h, rfl⟩,
    fun h => ⟨_, decodeCommand_of_encodeRow (fn := .request) h, rfl⟩,
    fun h => ⟨_, decodeCommand_of_wholeMask h, rfl⟩, fun h => ⟨_, decodeCommand_of_wholeMask h, rfl⟩,
    fun h => ⟨_, decodeCommand_of_wholeMask h, rfl⟩, fun h => ⟨_, decodeCommand_of_wholeMask h, rfl⟩,
    fun h => ⟨_, decodeCommand_of_op0Row h, rfl⟩, fun h => ⟨_, decodeCommand_of_op8FRow h, rfl⟩⟩

/-- Settles O4, by running the decoder on each of the fifteen words. -/
theorem sampleWordsDecode : Obligations.SampleWordsDecode := by
  unfold Obligations.SampleWordsDecode
  decide

end Sys2Proof
end

section
/-! PROOFS. The wire frame as bytes and as fields (30_encoding.md R80, R81; 43_decode.md R140). -/

namespace Sys2Proof

theorem Frame.body_length (f : Frame) : f.body.length = 5 + f.payload.length := by
  simp [Frame.body]
  omega

theorem Frame.wf_iff (f : Frame) : f.wf = true ↔ f.payload.length ≤ 255 := decide_eq_true_iff

/-- A byte sequence cut before its last two bytes. -/
theorem exists_eq_append_pair {bs : List Byte} (h : 2 ≤ bs.length) : ∃ body lo hi, bs = body ++ [lo, hi] := by
  obtain ⟨lo, hi, ht⟩ := List.length_eq_two.mp (show (bs.drop (bs.length - 2)).length = 2 by simp; omega)
  exact ⟨bs.take (bs.length - 2), lo, hi, by rw [← ht, List.take_append_drop]⟩

/-- What a frame without its trailer is: the start marker, four bytes of fields and the payload (R80). -/
theorem exists_eq_body {bs : List Byte} (h5 : 5 ≤ bs.length) (h0 : bs.getD 0 0 = Config.start) :
    ∃ f : Frame, bs = f.body := by
  match bs with
  | s :: al :: ah :: fn :: sub :: pl =>
    have hs : s = Config.start := h0
    exact ⟨⟨le16 al ah, fn, sub, pl⟩, by simp [Frame.body, hs]⟩
  | [] | [_] | [_, _] | [_, _, _] | [_, _, _, _] => simp at h5

/-- The trailer of a body and two more bytes. -/
theorem getD_body_append (f : Frame) (lo hi : Byte) :
    (f.body ++ [lo, hi]).getD (5 + f.payload.length) 0 = lo ∧
      (f.body ++ [lo, hi]).getD (6 + f.payload.length) 0 = hi := by
  have h6 : 6 + f.payload.length - (5 + f.payload.length) = 1 := by omega
  have hle : 5 + f.payload.length ≤ 6 + f.payload.length := by omega
  simp [List.getD, List.getElem?_append_right, Frame.body_length, h6, hle]

/-- The fields at the offsets of R80, and the payload between them and the trailer. -/
theorem fields_body_append (f : Frame) (t : List Byte) :
    (f.body ++ t).getD 0 0 = Config.start ∧ le16 ((f.body ++ t).getD 1 0) ((f.body ++ t).getD 2 0) = f.addr ∧
      (f.body ++ t).getD 3 0 = f.fn ∧ (f.body ++ t).getD 4 0 = f.sub ∧ f.body.drop Config.headerLen = f.payload := by
  simp [Frame.body, Config.headerLen]

theorem encodeFrame_getD_payload (f : Frame) (k : Nat) (hk : k < f.payload.length) :
    (encodeFrame f).getD (5 + k) 0 = f.payload.getD k 0 := by
  have h5 : encodeFrame f = [Config.start, loByte f.addr, hiByte f.addr, f.fn, f.sub] ++
      (f.payload ++ [loByte (crc16 f.body), hiByte (crc16 f.body)]) := by simp [encodeFrame, Frame.body]
  rw [h5, List.getD_append_right _ _ _ _ (by simp), List.getD_append _ _ _ _ (by simpa using hk)]
  simp

/-- `decodeFrame` on a body and two more bytes: only the length and the trailer are left to check. -/
theorem decodeFrame_body_append (f : Frame) (lo hi : Byte) :
    decodeFrame (f.body ++ [lo, hi]) =
      if 255 < f.payload.length then .error .tooLong
      else if le16 lo hi ≠ crc16 f.body then .error .badCrc else .ok f := by
  have hlen : (f.body ++ [lo, hi]).length = 7 + f.payload.length := by simp [Frame.body_length]; omega
  have h2 : 7 + f.payload.length - 2 = 5 + f.payload.length := by omega
  have h1 : 7 + f.payload.length - 1 = 6 + f.payload.length := by omega
  have hbody : (f.body ++ [lo, hi]).take (5 + f.payload.length) = f.body := List.take_left' f.body_length
  obtain ⟨hlo, hhi⟩ := getD_body_append f lo hi
  obtain ⟨hstart, haddr, hfn, hsub, hpl⟩ := fields_body_append f [lo, hi]
  have hmin : ¬ 7 + f.payload.length < Config.minLen := by simp [Config.minLen, Config.headerLen, Config.crcLen]
  have hmax : 262 < 7 + f.payload.length ↔ 255 < f.payload.length := by omega
  simp only [decodeFrame, hlen, h2, h1, hbody, hlo, hhi, hstart, haddr, hfn, hsub, hpl, hmin, hmax, ne_eq,
    not_true_eq_false, if_false]

/-- Settles O5: the trailer of an encoded frame is its CRC16. -/
theorem frameDecodeOfEncode : Obligations.FrameDecodeOfEncode := by
  intro f hf
  rw [Frame.wf_iff] at hf
  rw [encodeFrame, decodeFrame_body_append, if_neg (by omega), if_neg (by simp)]

theorem length_and_start_of_decodeFrame {bs : List Byte} {f : Frame} (h : decodeFrame bs = .ok f) :
    7 ≤ bs.length ∧ bs.getD 0 0 = Config.start := by
  unfold decodeFrame at h
  split at h
  · cases h
  rename_i hlen
  split at h
  · cases h
  split at h
  · cases h
  rename_i hstart
  exact ⟨Nat.le_of_not_lt hlen, not_not.mp hstart⟩

/-- Settles O6: a sequence that starts with the marker is the body of a frame and two bytes more, and those are the CRC16
where the trailer passes. -/
theorem frameEncodeOfDecode : Obligations.FrameEncodeOfDecode := by
  intro bs f h
  obtain ⟨hlen, hstart⟩ := length_and_start_of_decodeFrame h
  obtain ⟨body, lo, hi, rfl⟩ := exists_eq_append_pair (Nat.le_trans (by decide) hlen)
  have h5 : 5 ≤ body.length := by simpa using hlen
  have h0 : body.getD 0 0 = Config.start := by
    rwa [List.getD_append _ _ _ _ (by omega)] at hstart
  obtain ⟨g, rfl⟩ := exists_eq_body h5 h0
  rw [decodeFrame_body_append] at h
  split at h
  · cases h
  rename_i hpl
  split at h
  · cases h
  rename_i hcrc
  cases h
  refine ⟨(Frame.wf_iff _).mpr (by omega), ?_⟩
  rw [encodeFrame, ← not_not.mp hcrc, Machine.loByte_le16, Machine.hiByte_le16]

end Sys2Proof
end

section
/-! PROOFS. The address sets (30_encoding.md R85) and the dispatch of a command word (R100 to R102). -/

namespace Sys2Proof

/-! ## The address sets (R85) -/

theorem addrOK_control_iff (a : Byte) :
    addrOK .control a = true ↔ a ∈ [0x01#8, 0x02#8, 0x03#8, 0x04#8, 0x07#8, 0x08#8, 0x09#8, 0x0A#8, 0x0B#8] := by
  simp [addrOK, ControlAddr.all, ControlAddr.code, @eq_comm _ _ a]

theorem addrOK_read_iff (a : Byte) :
    addrOK .read a = true ↔ a ∈ [0x00#8, 0x01#8, 0x02#8, 0x03#8, 0x04#8, 0x05#8, 0x27#8, 0x28#8] := by
  simp [addrOK, DataAddr.all, DataAddr.code, @eq_comm _ _ a]

/-- READ and WRITE take the same addresses. -/
theorem addrOK_write_iff (a : Byte) :
    addrOK .write a = true ↔ a ∈ [0x00#8, 0x01#8, 0x02#8, 0x03#8, 0x04#8, 0x05#8, 0x27#8, 0x28#8] := addrOK_read_iff a

/-- The addresses a function refuses, by its code. -/
theorem addrOK_eq_false_iff (fn : FnCode) (a : Byte) :
    addrOK fn a = false ↔
      (fn.code.toNat ∈ [1, 2] ∧ a ∉ [0x00#8, 0x01#8, 0x02#8, 0x03#8, 0x04#8, 0x05#8, 0x27#8, 0x28#8]) ∨
      (fn.code.toNat = 3 ∧ a ∉ [0x01#8, 0x02#8, 0x03#8, 0x04#8, 0x07#8, 0x08#8, 0x09#8, 0x0A#8, 0x0B#8]) := by
  rw [← Bool.not_eq_true]
  cases fn with
  | read => simp only [addrOK_read_iff]; simp [FnCode.code]
  | write => simp only [addrOK_write_iff]; simp [FnCode.code]
  | control => simp only [addrOK_control_iff]; simp [FnCode.code]
  | request => simp [addrOK, FnCode.code]

/-- Settles O7: the codes of the closed sets of addresses. -/
theorem addressClassesOfFunctions : Obligations.AddressClassesOfFunctions :=
  fun a => ⟨addrOK_read_iff a, addrOK_write_iff a, addrOK_control_iff a, rfl⟩

end Sys2Proof

namespace Sys2Proof.Machine

/-! ## Refused words (R100 to R102) -/

section
variable {w : Word}

theorem command_of_reject {r : CommandReject} (hd : decodeCommand w = .error r) (s : State) :
    command w s = .next (rejectCommand r s) := by
  simp only [command, hd]

theorem command_reservedOpcode (h : w.toNat % 16 = 0 ∨ 8 ≤ w.toNat % 16) (s : State) :
    RefusedWith .reservedOpcode s (command w s) := by
  rw [← opField_toNat] at h
  rcases h with h0 | h8
  · rw [command_of_decode (decodeCommand_reservedOp0 (BitVec.eq_of_toNat_eq h0))]
    exact refusedWith_refuse _ s
  · rw [command_of_decode (decodeCommand_reservedOp8F h8)]
    exact refusedWith_refuse _ s

theorem command_reservedBits (h : ReservedBitsSet w) (s : State) : RefusedWith .reservedBits s (command w s) := by
  rw [command_of_reject (decodeCommand_reservedBits h)]
  exact refusedWith_refuse _ s

/-- The function code of an ENCODE word (R92). -/
theorem fnField_code_iff {fn : FnCode} :
    (fnField w).setWidth 8 = fn.code ↔ w.toNat / 16 % 16 = fn.code.toNat := by
  rw [← BitVec.toNat_inj, BitVec.toNat_setWidth_of_le (by decide), fnField_toNat]

/-! ## Words that pass the first two checks -/

/-- A word whose opcode is not reserved and whose reserved bits are 0 is a CRC.BYTE, an ENCODE word with a function code or
without one, or a command without operands. -/
theorem decodeCommand_cases_of_legal (h1 : ¬(w.toNat % 16 = 0 ∨ 8 ≤ w.toNat % 16)) (h2 : ¬ReservedBitsSet w) :
    (w.toNat % 16 = 2 ∧ ∃ b, decodeCommand w = .ok (.crcByte b)) ∨
    (w.toNat % 16 = 3 ∧ ∃ fn : FnCode, ∃ p, w.toNat / 16 % 16 = fn.code.toNat ∧
      decodeCommand w = .ok (encodeInstr fn p)) ∨
    (w.toNat % 16 = 3 ∧ w.toNat / 16 % 16 ∉ [1, 2, 3, 4] ∧ decodeCommand w = .error .badFunction) ∨
    (∃ i, (w, i) ∈ plainCommands ∧ decodeCommand w = .ok i) := by
  have hD := decoding w
  generalize decodeCommand w = d at hD ⊢
  cases hD with
  | reservedOp0 ho => exact absurd (.inl (opField_eq_iff.mp ho)) h1
  | reservedOp8F ho => exact absurd (.inr ((opField_toNat w).symm ▸ ho)) h1
  | crcByte ho => exact .inl ⟨opField_eq_iff.mp ho, _, rfl⟩
  | encodeInstr fn ho _ hf => exact .inr (.inl ⟨opField_eq_iff.mp ho, fn, _, fnField_code_iff.mp hf, rfl⟩)
  | plain i hi => exact .inr (.inr (.inr ⟨i, hi, rfl⟩))
  | reservedBits h => exact absurd h h2
  | badFunction ho _ hf =>
    refine .inr (.inr (.inl ⟨opField_eq_iff.mp ho, fun hm => ?_, rfl⟩))
    simp only [List.mem_cons, List.not_mem_nil, or_false] at hm
    rcases hm with hm | hm | hm | hm
    · exact hf .read (fnField_code_iff.mpr hm)
    · exact hf .write (fnField_code_iff.mpr hm)
    · exact hf .control (fnField_code_iff.mpr hm)
    · exact hf .request (fnField_code_iff.mpr hm)

theorem exec_encodeInstr (fn : FnCode) (p : Bool) (s : State) :
    exec (encodeInstr fn p) s = .next (encodeRequest fn p s) := by
  cases fn <;> rfl

theorem validateRx_keeps_refusal (s : State) :
    (validateRx s).cmdErrCode = s.cmdErrCode ∧ (validateRx s).cmdErr = s.cmdErr := by
  unfold validateRx
  split <;> exact ⟨rfl, rfl⟩

theorem startTransaction_keeps_refusal (exp : Option (BitVec 9)) (s : State) :
    (startTransaction exp s).cmdErrCode = s.cmdErrCode ∧ (startTransaction exp s).cmdErr = s.cmdErr := by
  rcases startTransaction_cases exp s with ⟨-, he⟩ | ⟨-, -, ⟨-, he⟩ | ⟨e, -, -, he⟩ | ⟨e, -, -, he⟩⟩ <;>
    rw [he] <;> exact ⟨rfl, rfl⟩

/-- The commands without operands: CRC.INIT and CLEAR are never refused, VALIDATE, XACT and FLUSH have an effect while idle
only; none but CLEAR touches CMDERR and CMD_ERR (R100). -/
theorem exec_plain_cases {i : Instr} (hi : (w, i) ∈ plainCommands) (s : State) :
    (w.toNat % 16 ∈ [1, 7] ∧
      ∃ t, exec i s = .next t ∧ (w.toNat % 16 ≠ 7 → t.cmdErrCode = s.cmdErrCode ∧ t.cmdErr = s.cmdErr)) ∨
    (w.toNat % 16 ∈ [4, 5, 6] ∧ ∃ f : State → State, exec i s = .next (whenIdle f s) ∧
      (f s).cmdErrCode = s.cmdErrCode ∧ (f s).cmdErr = s.cmdErr) := by
  simp only [plainCommands, List.mem_cons, Prod.mk.injEq, List.not_mem_nil, or_false] at hi
  rcases hi with ⟨rfl, rfl⟩ | ⟨rfl, rfl⟩ | ⟨rfl, rfl⟩ | ⟨rfl, rfl⟩ | ⟨rfl, rfl⟩
  · exact .inl ⟨by decide, _, rfl, fun _ => ⟨rfl, rfl⟩⟩
  · exact .inr ⟨by decide, _, rfl, validateRx_keeps_refusal s⟩
  · exact .inr ⟨by decide, _, rfl, startTransaction_keeps_refusal _ s⟩
  · exact .inr ⟨by decide, _, rfl, rfl, rfl⟩
  · exact .inl ⟨by decide, _, rfl, fun h => absurd rfl h⟩

theorem command_accepted {i : Instr} {s t : State} (hd : decodeCommand w = .ok i) (he : exec i s = .next t)
    (hk : w.toNat % 16 ≠ 7 → t.cmdErrCode = s.cmdErrCode ∧ t.cmdErr = s.cmdErr) :
    ∃ i t, decodeCommand w = .ok i ∧ encode i = .command w ∧ command w s = exec i s ∧ exec i s = .next t ∧
      (w.toNat % 16 ≠ 7 → t.cmdErrCode = s.cmdErrCode ∧ t.cmdErr = s.cmdErr) :=
  ⟨i, t, hd, (encode_of_decodeCommand hd).2, command_of_decode hd s, he, hk⟩

end

/-- Settles O32: the words of a reserved opcode decode to its row, which is refused. -/
theorem reservedOpcodesRefused : Obligations.ReservedOpcodesRefused := by
  intro hi s
  have h0 := decodeCommand_reservedOp0 (opField_append hi 0#4)
  rw [highField_append] at h0
  refine ⟨h0, refusedWith_refuse _ s, fun op ho => ⟨?_, refusedWith_refuse _ s⟩⟩
  have h8 := decodeCommand_reservedOp8F (w := hi ++ op) (by rwa [opField_append])
  rwa [opField_append, highField_append] at h8

/-- Settles O33: a word that fails the first two checks by what it is, and each kind of word that passes them. -/
theorem dispatchChecksInOrder : Obligations.DispatchChecksInOrder := by
  refine ⟨⟨rfl, rfl, rfl, rfl, rfl, rfl⟩, fun w s => ?_⟩
  split
  · exact command_reservedOpcode ‹_› s
  rename_i h1
  split
  · exact command_reservedBits (reservedBitsSet_iff.mpr ‹_›) s
  rename_i h2
  rcases decodeCommand_cases_of_legal h1 (mt reservedBitsSet_iff.mp h2) with
    ⟨hop, b, hd⟩ | ⟨hop, fn, p, hfn, hd⟩ | ⟨hop, hfn, hd⟩ | ⟨i, hi, hd⟩
  case inl =>
    rw [if_neg (by simp [hop]), if_neg (by simp [hop]), if_neg (by simp [hop])]
    exact command_accepted hd rfl fun _ => ⟨rfl, rfl⟩
  case inr.inl =>
    have hcode : w.toNat / 16 % 16 ∈ [1, 2, 3, 4] := by
      rw [hfn]
      cases fn <;> decide
    have hc : command w s = .next (encodeRequest fn p s) := by rw [command_of_decode hd, exec_encodeInstr]
    have he : exec (encodeInstr fn p) s = .next (encodeRequest fn p s) := exec_encodeInstr fn p s
    rcases encodeRequest_cases fn p s with ⟨hb, hr⟩ | ⟨hb, ha, hr⟩ | ⟨hb, ha, hr⟩
    · rw [if_pos ⟨hb, by simp [hop]⟩, hc, hr]
      exact refusedWith_refuse _ s
    · rw [if_neg (by simp [hb]), if_neg (fun h => h.2 hcode),
        if_pos ⟨hop, by rw [hfn]; exact (addrOK_eq_false_iff fn _).mp ha⟩, hc, hr]
      exact refusedWith_refuse _ s
    · rw [if_neg (by simp [hb]), if_neg (fun h => h.2 hcode),
        if_neg (fun h => by rw [hfn, ← addrOK_eq_false_iff, ha] at h; cases h.2)]
      exact command_accepted hd he fun _ => by rw [hr]; exact ⟨rfl, rfl⟩
  case inr.inr.inl =>
    rw [command_of_reject hd, rejectCommand]
    rcases whenIdle_cases (refuse .badFunction) s with ⟨hb, hr⟩ | ⟨hb, hr⟩
    · rw [if_pos ⟨hb, by simp [hop]⟩, hr]
      exact refusedWith_refuse _ s
    · rw [if_neg (by simp [hb]), if_pos ⟨hop, hfn⟩, hr]
      exact refusedWith_refuse _ s
  case inr.inr.inr =>
    have h3 : ∀ q ∈ plainCommands, q.1.toNat % 16 ≠ 3 := by decide
    rcases exec_plain_cases hi s with ⟨hop, t, he, hk⟩ | ⟨hop, f, he, hk⟩
    · have h456 : w.toNat % 16 ∉ [3, 4, 5, 6] := by
        simp only [List.mem_cons, List.not_mem_nil, or_false] at hop ⊢
        omega
      rw [if_neg (fun h => h456 h.2), if_neg (fun h => h3 _ hi h.1), if_neg (fun h => h3 _ hi h.1)]
      exact command_accepted hd he hk
    · rcases whenIdle_cases f s with ⟨hb, hr⟩ | ⟨hb, hr⟩
      · rw [if_pos ⟨hb, List.mem_cons_of_mem 3 hop⟩, command_of_decode hd, he, hr]
        exact refusedWith_refuse _ s
      · rw [if_neg (by simp [hb]), if_neg (fun h => h3 _ hi h.1), if_neg (fun h => h3 _ hi h.1)]
        exact command_accepted hd he fun _ => by rw [hr]; exact hk

end Sys2Proof.Machine
end

section
/-! PROOFS. How a transaction starts or ends at once, and the FRAME rows (30_encoding.md R82; 44_transaction.md R160,
R165). -/

namespace Sys2Proof.Machine

/-! ## The two ways out of an accepted XACT (R165) -/

theorem statusWord_finish_clearOutcome (r : Result) (s : State) :
    statusWord (finish r (clearOutcome s)) =
      (r.code.setWidth 16 <<< 8) ||| (statusWord s &&& 0x00E0#16) ||| 0x0008#16 := by
  apply BitVec.eq_of_getLsbD_eq
  intro i hi
  simp only [BitVec.getLsbD_or, BitVec.getLsbD_and, BitVec.getLsbD_shiftLeft, BitVec.getLsbD_setWidth,
    statusWord_getLsbD _ hi]
  interval_cases i <;> simp [State.busy, Phase.code]

theorem statusWord_beginTx_clearOutcome (e : BitVec 9) (s : State) :
    statusWord (beginTx e (clearOutcome s)) = (statusWord s &&& 0x00E0#16) ||| 0x0003#16 := by
  apply BitVec.eq_of_getLsbD_eq
  intro i hi
  simp only [BitVec.getLsbD_or, BitVec.getLsbD_and, statusWord_getLsbD _ hi]
  interval_cases i <;> simp [State.busy, Phase.code, Result.code]

theorem endedAtStart_finish (r : Result) (s : State) : EndedAtStart r s (finish r (clearOutcome s)) := by
  refine ⟨statusWord_finish_clearOutcome r s, fun q hq => ?_, fun _ => rfl, fun _ => rfl, ⟨rfl, rfl, rfl⟩, rfl, rfl, rfl⟩
  cases q with
  | status => simp at hq
  | _ => rfl

theorem startedWith_beginTx (e : BitVec 9) (s : State) : StartedWith e.toNat s (beginTx e (clearOutcome s)) := by
  refine ⟨statusWord_beginTx_clearOutcome e s, BitVec.toNat_setWidth_of_le (by decide), rfl, rfl, fun q hq => ?_,
    fun _ => rfl, fun _ => rfl, ⟨rfl, rfl, rfl⟩, rfl, rfl, rfl⟩
  cases q with
  | status | rxExp | rxLen | txIdx => simp at hq
  | _ => rfl

/-- The checks of R165 in order, for the reply length `e` (none where the function is unsupported). -/
theorem startTransaction_checks {exp : Option (BitVec 9)} {e : Option Nat} (s : State) (he : exp.map BitVec.toNat = e) :
    if s.txLen.toNat < 7 ∨ 8 < s.txLen.toNat then EndedAtStart .badLength s (startTransaction exp s)
    else if e = none then EndedAtStart .unsupportedFunction s (startTransaction exp s)
    else if s.linkOpen = false then EndedAtStart .notConnected s (startTransaction exp s)
    else StartedWith (e.getD 0) s (startTransaction exp s) := by
  subst he
  rcases startTransaction_cases exp s with ⟨hl, ht⟩ | ⟨h7, h8, ⟨hn, ht⟩ | ⟨x, hx, hk, ht⟩ | ⟨x, hx, hk, ht⟩⟩ <;>
    rw [ht]
  · rw [if_pos hl]
    exact endedAtStart_finish _ s
  · rw [if_neg (by omega), if_pos (by rw [hn]; rfl)]
    exact endedAtStart_finish _ s
  · rw [if_neg (by omega), if_neg (by simp [hx]), if_pos hk]
    exact endedAtStart_finish _ s
  · rw [if_neg (by omega), if_neg (by simp [hx]), if_neg (by simp [hk]), hx]
    exact startedWith_beginTx x s

/-! ## The FRAME rows (R160) -/

theorem exec_frameInstr (fn : FnCode) (s : State) : exec (frameInstr fn) s = .next (transactFrame fn s) := by
  cases fn <;> rfl

/-- The reply lengths of R160 as numbers; a READ reply of 7 + count bytes fits the 9 bits of RX_EXP. -/
theorem replyLenOf_toNat (fn : FnCode) (s : State) :
    (replyLenOf fn s).map BitVec.toNat =
      match fn with
      | .read => some (7 + (readTx 5 s).toNat)
      | .write => some 8
      | .control => some s.txLen.toNat
      | .request => none := by
  cases fn with
  | read =>
    have hb := (readTx 5 s).isLt
    simp only [replyLenOf, Option.map_some, BitVec.toNat_add, BitVec.toNat_setWidth, Option.some.injEq]
    simp
    omega
  | control => exact congrArg some (BitVec.toNat_setWidth_of_le (by decide))
  | write | request => rfl

/-- A FRAME row is refused while busy and else makes the checks of R165. -/
theorem exec_frameInstr_checks {fn : FnCode} {e : Option Nat} (s : State)
    (he : (replyLenOf fn s).map BitVec.toNat = e) :
    (s.busy = true → RefusedWith .busy s (exec (frameInstr fn) s)) ∧
    (s.busy = false → ∃ t, exec (frameInstr fn) s = .next t ∧
      if s.txLen.toNat < 7 ∨ 8 < s.txLen.toNat then EndedAtStart .badLength s t
      else if e = none then EndedAtStart .unsupportedFunction s t
      else if s.linkOpen = false then EndedAtStart .notConnected s t
      else StartedWith (e.getD 0) s t) := by
  rw [exec_frameInstr]
  refine ⟨fun hb => refusedWith_whenIdle hb _, fun hb => ⟨_, rfl, ?_⟩⟩
  rw [transactFrame, whenIdle_idle hb]
  exact startTransaction_checks s he

/-- Settles O21, row by row, each with its reply length. -/
theorem frameRowsTransactTheirRequest : Obligations.FrameRowsTransactTheirRequest := by
  intro s
  simp only [List.forall_mem_cons, List.not_mem_nil, false_imp_iff, implies_true, and_true]
  exact ⟨exec_frameInstr_checks (fn := .read) s (replyLenOf_toNat .read s),
    exec_frameInstr_checks (fn := .write) s (replyLenOf_toNat .write s),
    exec_frameInstr_checks (fn := .control) s (replyLenOf_toNat .control s),
    exec_frameInstr_checks (fn := .request) s (replyLenOf_toNat .request s)⟩

end Sys2Proof.Machine
end

section
/-! PROOFS. A buffer that holds a byte sequence from offset 0 (10_state.md R40, R41). -/

namespace Sys2Proof.Machine

theorem prefixBytes_take {n : Nat} (v : Vector Byte n) {m L : Nat} (hm : m ≤ L) :
    (prefixBytes v L).take m = prefixBytes v m := by
  simp [prefixBytes, List.take_take, hm]

theorem prefixBytes_storeBytes {n : Nat} (v : Vector Byte n) {bs : List Byte} (hn : bs.length ≤ n) :
    prefixBytes (storeBytes v 0 bs) bs.length = bs := by
  apply List.ext_getElem (prefixBytes_length _ _ hn)
  intro i hi hi'
  have hs := readBuf_storeBytes_inside bs v 0 i hi' (by omega)
  rw [Nat.zero_add, ← prefixBytes_getD _ bs.length i hi'] at hs
  simpa [List.getD, hi, hi'] using hs

/-- Byte `i` of a sequence, read where a buffer holds the sequence. -/
theorem readBuf_of_prefixBytes {n : Nat} {v : Vector Byte n} {bs : List Byte} (hv : prefixBytes v bs.length = bs) {i : Nat}
    (hi : i < bs.length) : readBuf v i = bs.getD i 0 := by
  rw [← prefixBytes_getD v bs.length i hi, hv]

end Sys2Proof.Machine
end

section
/-! PROOFS. Runs over queued host accesses, and CRC.BLOCK (30_encoding.md R105, R106; 41_crc.md R110 to R112). -/

namespace Sys2Proof.Machine

/-! ## Runs -/

theorem run_of_step {s t : State} (H : step s = .next t) (k : Nat) : run (k + 1) s = run k t := by
  simp only [run, Host.Core.run, show core.step s = .next t from H]
  rfl

/-- The access at the head of the agenda is the next event. -/
theorem run_access {s t : State} {h : Nat} {a : Access} {rest : List Event} (ha : s.agenda = .host h a :: rest)
    (H : perform (.host h a) { s with agenda := rest } = .next t) (k : Nat) : run (k + 1) s = run k t :=
  run_of_step ((step_agenda ha).trans H) k

/-- A write to a register other than `CMD` (10_state.md R22). -/
theorem run_writeReg {s : State} {h : Nat} (hh : h < Config.nHosts) {r : Reg} (hr : r ≠ .cmd) {v : Word}
    {rest : List Event} (ha : s.agenda = .host h (writeNamed r v) :: rest) (k : Nat) :
    run (k + 1) s = run k (writeReg r v { s with agenda := rest }) :=
  run_access ha (perform_writeReg hh hr v _) k

/-- The write of an encoded instruction to `CMD` performs it (R91, R100). -/
theorem perform_encoded {h : Nat} (hh : h < Config.nHosts) {i : Instr} {w : Word} (hi : i.wf = true)
    (hw : encode i = .command w) (s : State) : perform (.host h (writeNamed .cmd w)) s = exec i s := by
  have hd : decode (.command w) = .ok i := hw ▸ decodeOfEncodeIsInstruction i hi
  rw [writeNamed, perform_writeCmd hh, command_of_decode (decode_command_eq_ok.mp hd)]

theorem programEvents_singleton (h : Nat) (st : Stmt) : programEvents h [st] = st.accesses.map (.host h) := by
  simp [programEvents]

/-! ## CRC.BLOCK -/

/-- One CRC.BYTE per byte folds the bytes into CRC (41_crc.md R112). -/
theorem run_crcBytes {h : Nat} (hh : h < Config.nHosts) (bs : List Byte) {more : List Event} {s : State}
    (ha : s.agenda = (bs.flatMap fun b => instrAccesses (.crcByte b)).map (.host h) ++ more) :
    run bs.length s = .next { s with crc := crcFold s.crc bs, agenda := more } := by
  induction bs generalizing s with
  | nil =>
    rw [← show s.agenda = more from ha]
    rfl
  | cons b bs ih =>
    have hp := perform_encoded hh (i := .crcByte b) rfl rfl
    rw [List.length_cons, run_access ha (hp _)]
    exact ih rfl

/-- Settles O10: CRC.INIT, then the fold over the bytes. -/
theorem crcBlockLeavesCrc16 : Obligations.CrcBlockLeavesCrc16 := by
  intro h bs more s hh ha
  rw [programEvents_singleton] at ha
  have hp := perform_encoded hh (i := .crcInit) rfl rfl
  refine ⟨{ s with crc := crc16 bs, agenda := more }, ?_, rfl, fun r hr => ?_, fun _ => rfl, fun _ => rfl,
    ⟨rfl, rfl, rfl⟩, rfl⟩
  · rw [Nat.add_comm, run_access ha (hp _)]
    exact run_crcBytes hh bs rfl
  · cases r with
    | crc => simp at hr
    | _ => rfl

end Sys2Proof.Machine
end

section
/-! PROOFS. SEND (30_encoding.md R106; 42_encode.md R124; 44_transaction.md R160, R165). -/

namespace Sys2Proof.Machine

/-! ## ENCODE, XACT and the read of STATUS -/

theorem encodeRequest_accepted {fn : FnCode} {s : State} (hb : s.busy = false) (ha : addrOK fn s.encSub = true)
    (p : Bool) : encodeRequest fn p s = loadRequest (encodeFrame (requestFrame fn p s)) s := by
  rw [encodeRequest, whenIdle_idle hb, if_pos ha]

theorem loadRequest_txLen_toNat {bs : List Byte} (hl : bs.length ≤ 8) (s : State) :
    (loadRequest bs s).txLen.toNat = bs.length := Nat.mod_eq_of_lt (by omega)

theorem prefixBytes_loadRequest {bs : List Byte} (hl : bs.length ≤ 8) (s : State) :
    prefixBytes (loadRequest bs s).txBuf (loadRequest bs s).txLen.toNat = bs := by
  rw [loadRequest_txLen_toNat hl]
  exact prefixBytes_storeBytes s.txBuf hl

theorem startTransaction_begins {s : State} {e : BitVec 9} (h7 : 7 ≤ s.txLen.toNat) (h8 : s.txLen.toNat ≤ 8)
    (hk : s.linkOpen = true) : startTransaction (some e) s = beginTx e (clearOutcome s) := by
  rw [startTransaction, if_neg (by omega)]
  exact if_pos hk

/-- The reply length of a request, from its function and payload (R160). -/
def replyLength (fn : FnCode) (pl : List Byte) : Nat :=
  match fn with
  | .read => 7 + (pl.getD 0 0).toNat
  | .write => 8
  | .control => 7 + pl.length
  | .request => 0

section
variable {fn : FnCode} {f : Frame} {s : State}

/-- The reply length of a frame in `TxBuf`. -/
theorem replyLenOf_loadRequest (hf : fn ≠ .request) (hl : f.payload.length ≤ 1)
    (hr : fn = .read → f.payload.length = 1) :
    (replyLenOf fn (loadRequest (encodeFrame f) s)).map BitVec.toNat = some (replyLength fn f.payload) := by
  have hlen : (encodeFrame f).length ≤ 8 := by
    rw [encodeFrame_length]
    omega
  rw [replyLenOf_toNat]
  cases fn with
  | read =>
    have h5 : 5 < (encodeFrame f).length := by
      rw [encodeFrame_length]
      omega
    have hb : readTx 5 (loadRequest (encodeFrame f) s) = f.payload.getD 0 0 := by
      rw [readTx, loadRequest_txBuf, readBuf_of_prefixBytes (prefixBytes_storeBytes s.txBuf hlen) h5]
      exact encodeFrame_getD_payload f 0 (by rw [hr rfl]; decide)
    rw [hb, replyLength]
  | write => rfl
  | control =>
    simp only [loadRequest_txLen_toNat hlen, encodeFrame_length]
    rfl
  | request => exact absurd rfl hf

/-- A frame loaded into `TxBuf` while idle with the link open starts its own transaction (R160, R165). -/
theorem exec_xact_loaded (hf : fn ≠ .request) (hc : f.fn = fn.code) (hl : f.payload.length ≤ 1)
    (hr : fn = .read → f.payload.length = 1) (hb : s.busy = false) (hk : s.linkOpen = true) :
    ∃ e : BitVec 9, e.toNat = replyLength fn f.payload ∧
      exec .xact (loadRequest (encodeFrame f) s) =
        .next (beginTx e (clearOutcome (loadRequest (encodeFrame f) s))) := by
  have hexp := replyLenOf_loadRequest (s := s) hf hl hr
  obtain ⟨e, he, hen⟩ := Option.map_eq_some_iff.mp hexp
  have hlen : (loadRequest (encodeFrame f) s).txLen.toNat = 7 + f.payload.length := by
    rw [loadRequest_txLen_toNat (by rw [encodeFrame_length]; omega), encodeFrame_length]
  have hstart := startTransaction_begins (e := e) (s := loadRequest (encodeFrame f) s) (by omega) (by omega) hk
  have hidle : (loadRequest (encodeFrame f) s).busy = false := hb
  have hfn : readTx 3 (loadRequest (encodeFrame f) s) = fn.code := (readTx_fnByte_loadRequest f s).trans hc
  refine ⟨e, hen, ?_⟩
  rw [exec_xact_of_fnByte hfn, exec_frameInstr, transactFrame, whenIdle_idle hidle, he, hstart]

end

/-! ## SEND -/

/-- The accesses with which SEND ends: ENCODE, XACT and one read of STATUS (R106). -/
def sendAccesses (fn : FnCode) (p : Bool) : List Access :=
  instrAccesses (encodeInstr fn p) ++ instrAccesses .xact ++ [.readReg Reg.status.index]

theorem sendAccesses_eq (fn : FnCode) (p : Bool) :
    sendAccesses fn p =
      [writeNamed .cmd (encodeF2 fn p), writeNamed .cmd 0x0005, .readReg Reg.status.index] := by
  rw [sendAccesses, instrAccesses, encode_encodeInstr]
  rfl

theorem encodeInstr_wf (fn : FnCode) (p : Bool) : (encodeInstr fn p).wf = true := by cases fn <;> rfl

/-- The transaction of the frame `f` has begun, with reply length `e` (R165), where hosts have read `reads` and `wire` is on
the line. -/
structure TransactionBegun (f : Frame) (e : Nat) (reads : List (Nat × Word)) (wire : List Byte) (t : State) : Prop where
  phase : t.phase = .tx
  txIdx : t.txIdx = 0
  rxLen : t.rxLen = 0
  request : prefixBytes t.txBuf t.txLen.toNat = encodeFrame f
  rxExp : t.rxExp.toNat = e
  hostReads : t.hostReads = reads
  wireOut : t.wireOut = wire

theorem transactionBegun_beginTx {f : Frame} (hl : f.payload.length ≤ 1) (e : BitVec 9) (s : State) :
    TransactionBegun f e.toNat s.hostReads s.wireOut (beginTx e (clearOutcome (loadRequest (encodeFrame f) s))) where
  phase := rfl
  txIdx := rfl
  rxLen := rfl
  request := by
    rw [beginTx_txBuf, beginTx_txLen, clearOutcome_txBuf, clearOutcome_txLen]
    exact prefixBytes_loadRequest (by rw [encodeFrame_length]; omega) s
  rxExp := rfl
  hostReads := rfl
  wireOut := rfl

theorem loadRequest_setAgenda (bs : List Byte) (s : State) (rest : List Event) :
    { loadRequest bs s with agenda := rest } = loadRequest bs { s with agenda := rest } := rfl

section
variable {h : Nat} {rest : List Event} {s : State} (hh : h < Config.nHosts)
include hh

theorem run_encode {fn : FnCode} {p : Bool} (hb : s.busy = false) (hok : addrOK fn s.encSub = true)
    (ha : s.agenda = .host h (writeNamed .cmd (encodeF2 fn p)) :: rest) (k : Nat) :
    run (k + 1) s = run k (loadRequest (encodeFrame (requestFrame fn p s)) { s with agenda := rest }) := by
  refine run_access ha ?_ k
  rw [perform_encoded hh (encodeInstr_wf fn p) (encode_encodeInstr fn p), exec_encodeInstr]
  exact congrArg Host.Outcome.next (encodeRequest_accepted (s := { s with agenda := rest }) hb hok p)

theorem run_xact_loaded {fn : FnCode} {f : Frame} (hf : fn ≠ .request) (hc : f.fn = fn.code)
    (hl : f.payload.length ≤ 1) (hr : fn = .read → f.payload.length = 1) (hb : s.busy = false) (hk : s.linkOpen = true)
    (ha : s.agenda = .host h (writeNamed .cmd 0x0005) :: rest) :
    ∃ t, (∀ k, run (k + 1) (loadRequest (encodeFrame f) s) = run k t) ∧
      TransactionBegun f (replyLength fn f.payload) s.hostReads s.wireOut t ∧ t.agenda = rest := by
  obtain ⟨e, he, hx⟩ := exec_xact_loaded (s := { s with agenda := rest }) hf hc hl hr hb hk
  have hp : perform (.host h (writeNamed .cmd 0x0005)) { loadRequest (encodeFrame f) s with agenda := rest } =
      .next (beginTx e (clearOutcome (loadRequest (encodeFrame f) { s with agenda := rest }))) := by
    rw [loadRequest_setAgenda, perform_encoded hh (i := .xact) rfl rfl, hx]
  have hbegun := transactionBegun_beginTx hl e { s with agenda := rest }
  rw [he] at hbegun
  exact ⟨_, run_access ((loadRequest_agenda _ s).trans ha) hp, hbegun, rfl⟩

theorem run_readStatus (ha : s.agenda = .host h (.readReg Reg.status.index) :: rest) (k : Nat) :
    run (k + 1) s = run k (returnRead h (statusWord s) { s with agenda := rest }) := by
  refine run_access ha ?_ k
  rw [perform_readReg hh, readSlot_index]
  rfl

/-- From an idle block with the link open and the operands of a legal request, ENCODE, XACT and the read of STATUS leave the
request in `TxBuf` and its transaction begun. -/
theorem run_sendAccesses {fn : FnCode} {p : Bool} (hf : fn ≠ .request) (hb : s.busy = false) (hk : s.linkOpen = true)
    (hok : addrOK fn s.encSub = true) (ha : s.agenda = (sendAccesses fn p).map (.host h) ++ rest) :
    ∃ t, run 3 s = .next t ∧ TransactionBegun (requestFrame fn p s) (replyLength fn (requestPayload fn p s))
      (s.hostReads ++ [(h, statusWord t)]) s.wireOut t ∧ t.agenda = rest := by
  have hl := requestPayload_length fn p s
  have hread : fn = .read → (requestPayload fn p s).length = 1 := by
    rintro rfl
    rfl
  rw [sendAccesses_eq] at ha
  have hencode := run_encode hh hb hok ha 2
  generalize hF : requestFrame fn p s = f at hencode ⊢
  have hfn : f.fn = fn.code := hF ▸ rfl
  have hpl : f.payload = requestPayload fn p s := hF ▸ rfl
  rw [← hpl] at hl hread ⊢
  obtain ⟨t, hxact, hbegun, hta⟩ := run_xact_loaded hh hf hfn hl hread
    (s := { s with agenda := [writeNamed .cmd 0x0005, .readReg Reg.status.index].map (.host h) ++ rest }) hb hk rfl
  obtain ⟨hphase, hidx, hlen, hreq, hexp, hreads, hwire⟩ := hbegun
  exact ⟨_, hencode.trans ((hxact 1).trans (run_readStatus hh hta 0)),
    ⟨hphase, hidx, hlen, hreq, hexp, congrArg (· ++ [(h, statusWord t)]) hreads, hwire⟩, rfl⟩

end

/-- The block once SEND has stored its operands, the low bytes of `sub` and `data`; without data ENC_DATA stays as it is
(10_state.md R35 to R37, 30_encoding.md R106). -/
def withOperands (addr sub : Word) (data : Option Word) (s : State) : State :=
  { s with
    encAddr := addr
    encSub := sub.setWidth 8
    encData := (data.map (BitVec.setWidth 8)).getD s.encData }

theorem run_send_operands {h : Nat} (hh : h < Config.nHosts) (fn : FnCode) (addr sub : Word) (data : Option Word)
    {more : List Event} {s : State} (ha : s.agenda = programEvents h [.send fn addr sub data] ++ more) :
    run (if data = none then 5 else 6) s = run 3 (withOperands addr sub data
      { s with agenda := (sendAccesses fn data.isSome).map (.host h) ++ more }) := by
  rw [programEvents_singleton] at ha
  cases data with
  | none =>
    exact (run_writeReg hh (r := .encAddr) (by decide) ha 4).trans
      (run_writeReg hh (r := .encSub) (by decide) rfl 3)
  | some d =>
    exact (run_writeReg hh (r := .encAddr) (by decide) ha 5).trans
      ((run_writeReg hh (r := .encSub) (by decide) rfl 4).trans (run_writeReg hh (r := .encData) (by decide) rfl 3))

/-- Settles O39: the operands are stored, then ENCODE, XACT and the read of STATUS find them. -/
theorem sendStartsTransaction : Obligations.SendStartsTransaction := by
  intro fn addr sub data pl h more s hf hok hh hb hk hpl ha
  have hp (u : State) : requestPayload fn data.isSome (withOperands addr sub data u) = pl := by
    rw [hpl]
    cases fn <;> cases data <;> rfl
  rw [run_send_operands hh fn addr sub data ha]
  obtain ⟨t, hrun, ⟨hphase, hidx, hlen, hreq, hexp, hreads, hwire⟩, hta⟩ := run_sendAccesses hh hf
    (s := withOperands addr sub data { s with agenda := (sendAccesses fn data.isSome).map (.host h) ++ more }) hb hk hok rfl
  rw [hp] at hexp
  refine ⟨t, hrun, hphase, hidx, hlen, hreq.trans ?_, hexp.trans ?_, hreads, hwire, hta⟩
  · rw [requestFrame, hp]
    rfl
  · cases fn <;> rfl

end Sys2Proof.Machine
end

section
/-! PROOFS. LOADRX and CHECK, and VALIDATE of an encoded frame (30_encoding.md R106; 43_decode.md R140 to R142, R150 to
R152). -/

namespace Sys2Proof.Machine

/-! ## An encoded frame in `RxBuf` -/

section
variable {f : Frame} {s : State} (hbuf : prefixBytes s.rxBuf (encodeFrame f).length = encodeFrame f)
include hbuf

theorem readRx_encodedFrame {i : Nat} (hi : i < 7 + f.payload.length) : readRx i s = (encodeFrame f).getD i 0 :=
  readBuf_of_prefixBytes hbuf (by rwa [encodeFrame_length])

/-- The views show the fields at their offsets (R150 to R152). -/
theorem views_encodedFrame :
    readRx 0 s = Config.start ∧ readReg .rxAddr s = f.addr ∧ readReg .rxFn s = f.fn.setWidth 16 ∧
      readReg .rxSub s = f.sub.setWidth 16 ∧ ∀ k < f.payload.length, readRx (5 + k) s = f.payload.getD k 0 := by
  have hread {i : Nat} (hi : i < 7 + f.payload.length) := readRx_encodedFrame hbuf hi
  obtain ⟨hstart, haddr, hfn, hsub, -⟩ := fields_body_append f [loByte (crc16 f.body), hiByte (crc16 f.body)]
  refine ⟨(hread (by omega)).trans hstart, ?_, ?_, ?_, fun k hk => ?_⟩
  · rw [readReg, hread (by omega), hread (by omega)]
    exact haddr
  · rw [readReg, hread (by omega)]
    exact congrArg (BitVec.setWidth 16) hfn
  · rw [readReg, hread (by omega)]
    exact congrArg (BitVec.setWidth 16) hsub
  · rw [hread (by omega), encodeFrame_getD_payload f k hk]

/-- The check finds the start marker and, in the trailer, the CRC16 of the body (R140). -/
theorem check_encodedFrame : check (7 + f.payload.length) s = ⟨true, crc16 f.body, crc16 f.body⟩ := by
  have h2 : 7 + f.payload.length - 2 = 5 + f.payload.length := by omega
  have h1 : 7 + f.payload.length - 1 = 6 + f.payload.length := by omega
  have hbody : prefixBytes s.rxBuf (5 + f.payload.length) = f.body := by
    rw [← prefixBytes_take s.rxBuf (L := (encodeFrame f).length) (by rw [encodeFrame_length]; omega), hbuf, encodeFrame]
    exact List.take_left' f.body_length
  obtain ⟨hlo, hhi⟩ := getD_body_append f (loByte (crc16 f.body)) (hiByte (crc16 f.body))
  obtain ⟨hstart, -⟩ := views_encodedFrame hbuf
  have htrailer : le16 (readRx (5 + f.payload.length) s) (readRx (6 + f.payload.length) s) = crc16 f.body := by
    rw [readRx_encodedFrame hbuf (by omega), readRx_encodedFrame hbuf (by omega), encodeFrame, hlo, hhi, le16_lo_hi]
  simp only [check, h2, h1, hbody, htrailer, hstart, beq_self_eq_true, Bool.and_self]

/-- VALIDATE latches that the frame is valid (R142). -/
theorem validateRx_encodedFrame (hf : f.wf = true) (hl : s.rxLen.toNat = 7 + f.payload.length) :
    validateRx s = latchCheck ⟨true, crc16 f.body, crc16 f.body⟩ s := by
  rw [Frame.wf_iff] at hf
  have hr : ¬(s.rxLen.toNat < Config.minLen ∨ Config.rxBufSize < s.rxLen.toNat) := by
    simp only [Config.minLen, Config.headerLen, Config.crcLen, Config.rxBufSize]
    omega
  rw [validateRx, if_neg hr, validateFrame, hl, check_encodedFrame hbuf]

end

/-! ## LOADRX and CHECK -/

section
variable {h : Nat} {rest : List Event} {s : State} (hh : h < Config.nHosts)
include hh

theorem perform_writeRx_idle (hb : s.busy = false) (i : Nat) (b : Byte) :
    perform (.host h (.writeRx i b)) s = .next (storeRx i b s) := by
  rw [perform_writeRx hh, whenIdle_idle hb]

/-- While idle the buffer writes of LOADRX store their bytes one after another. -/
theorem run_loadFrom {i : Nat} {bs : List Byte} (hb : s.busy = false)
    (ha : s.agenda = (loadFrom i bs).map (.host h) ++ rest) (k : Nat) :
    run (bs.length + k) s = run k { s with rxBuf := storeBytes s.rxBuf i bs, agenda := rest } := by
  induction bs generalizing i s with
  | nil =>
    rw [← show s.agenda = rest from ha, List.length_nil, Nat.zero_add]
    rfl
  | cons b bs ih =>
    rw [List.length_cons, Nat.add_right_comm]
    exact (run_access ha (perform_writeRx_idle hh (by exact hb) i b) _).trans (ih hb rfl)

theorem run_writeRxLen {v : Word} (hb : s.busy = false) (ha : s.agenda = .host h (writeNamed .rxLen v) :: rest)
    (k : Nat) : run (k + 1) s = run k { s with rxLen := v.setWidth 9, agenda := rest } := by
  rw [run_writeReg hh (by decide) ha, writeReg]
  exact congrArg (run k) (whenIdle_idle hb)

theorem run_validate (hb : s.busy = false) (ha : s.agenda = .host h (writeNamed .cmd 0x0004) :: rest) (k : Nat) :
    run (k + 1) s = run k (validateRx { s with agenda := rest }) := by
  refine run_access ha ((perform_encoded hh (i := .validate) rfl rfl _).trans ?_) k
  exact congrArg Host.Outcome.next (whenIdle_idle hb)

/-- CHECK while idle: the bytes stand in `RxBuf` with their length in RX_LEN when VALIDATE comes. -/
theorem run_check {bs : List Byte} (hb : s.busy = false)
    (ha : s.agenda = (Stmt.checkFrame bs).accesses.map (.host h) ++ rest) :
    ∃ u, run (bs.length + 2) s = .next (validateRx u) ∧ u.rxBuf = storeBytes s.rxBuf 0 bs ∧
      u.rxLen = (BitVec.ofNat 16 bs.length).setWidth 9 ∧ u.agenda = rest := by
  have ha : s.agenda = (loadFrom 0 bs).map (.host h) ++
      ([writeNamed .rxLen (BitVec.ofNat 16 bs.length), writeNamed .cmd 0x0004].map (.host h) ++ rest) := by
    rw [ha, Stmt.accesses, loadRxAccesses]
    simp only [List.map_append, List.append_assoc]
    rfl
  obtain ⟨t, hload, hbuf, hidle, hnext⟩ : ∃ t, run (bs.length + 2) s = run 2 t ∧ t.rxBuf = storeBytes s.rxBuf 0 bs ∧
      t.busy = false ∧ t.agenda = .host h (writeNamed .rxLen (BitVec.ofNat 16 bs.length)) ::
        .host h (writeNamed .cmd 0x0004) :: rest := ⟨_, run_loadFrom hh hb ha 2, rfl, hb, rfl⟩
  have hlen := run_writeRxLen hh hidle hnext 1
  exact ⟨_, hload.trans (hlen.trans (run_validate hh (by exact hidle) rfl 0)), hbuf, rfl, rfl⟩

end

/-- Settles O40: CHECK leaves the frame in `RxBuf`, where VALIDATE finds it valid and the views show its fields. -/
theorem checkOfEncodedFrameIsValid : Obligations.CheckOfEncodedFrameIsValid := by
  intro f h more s hf hh hb ha
  rw [programEvents_singleton] at ha
  obtain ⟨u, hrun, hbuf, hlen, hmore⟩ := run_check hh hb ha
  have hpl := (Frame.wf_iff f).mp hf
  have hin : prefixBytes u.rxBuf (encodeFrame f).length = encodeFrame f := by
    rw [hbuf]
    refine prefixBytes_storeBytes s.rxBuf ?_
    rw [encodeFrame_length, Config.rxBufSize]
    omega
  have hL : u.rxLen.toNat = 7 + f.payload.length := by
    rw [hlen, encodeFrame_length, BitVec.toNat_setWidth, BitVec.toNat_ofNat]
    omega
  have hn : 9 + f.payload.length = (encodeFrame f).length + 2 := by
    rw [encodeFrame_length]
    omega
  obtain ⟨-, haddr, hfn, hsub, hpayload⟩ := views_encodedFrame hin
  rw [hn, hrun, validateRx_encodedFrame hin hf hL]
  exact ⟨_, rfl, rfl, rfl, haddr, hfn, hsub, hpayload, hmore⟩

end Sys2Proof.Machine
end

section
/-! PROOFS. The CRC as a function of its register and of each byte: the residue, and the commands CRC.INIT and CRC.BYTE
(41_crc.md R110 to R112, R114). -/

namespace Sys2Proof

/-! ## The shift iterations (R110) -/

theorem crcShifts_eq_iterate (n : Nat) (c : Word) : crcShifts n c = crcShift^[n] c := by
  induction n generalizing c with
  | zero => rfl
  | succ n ih => exact ih (crcShift c)

/-- As long as the bits shifted out are 0 no iteration XORs 0xA001. -/
theorem crcShifts_of_low_bits_zero {n : Nat} {c : Word} (h : ∀ i < n, c.getLsbD i = false) :
    crcShifts n c = c >>> n := by
  induction n generalizing c with
  | zero => rw [crcShifts, BitVec.ushiftRight_zero]
  | succ n ih =>
    have hshift : crcShift c = c >>> 1 := if_neg (Bool.eq_false_iff.mp (h 0 n.succ_pos))
    have hlow : ∀ i < n, (c >>> 1).getLsbD i = false := fun i hi => by
      rw [BitVec.getLsbD_ushiftRight]
      exact h (1 + i) (by omega)
    rw [crcShifts, hshift, ih hlow, ← BitVec.shiftRight_add, Nat.add_comm]

/-! ## The residue (R114) -/

/-- A byte equal to the low byte of the register only shifts the register's high byte down. -/
theorem crcUpdate_loByte (c : Word) : crcUpdate c (loByte c) = (hiByte c).setWidth 16 := by
  have hlow : ∀ i < 8, (c ^^^ (loByte c).setWidth 16).getLsbD i = false := fun i hi => by
    simp [loByte, hi, show i < 16 by omega]
  rw [crcUpdate, crcShifts_of_low_bits_zero hlow]
  apply BitVec.eq_of_getLsbD_eq
  intro i hi
  by_cases h8 : i < 8
  · simp [hiByte, loByte, h8, hi]
  · simp [hiByte, h8, hi, BitVec.getLsbD_of_ge c (8 + i) (by omega)]

theorem crcUpdate_own_byte (b : Byte) : crcUpdate (b.setWidth 16) b = 0#16 := by
  rw [crcUpdate, BitVec.xor_self]
  exact crcShifts_of_low_bits_zero fun i _ => BitVec.getLsbD_zero

theorem crcFold_own_bytes (c : Word) : crcFold c [loByte c, hiByte c] = 0#16 := by
  rw [crcFold_cons, crcUpdate_loByte, crcFold_cons, crcUpdate_own_byte, crcFold_nil]

/-- Settles O11: whatever the register holds, its own two bytes fold it to zero. -/
theorem crcResidueIsZero : Obligations.CrcResidueIsZero := by
  intro x
  rw [crc16_append, crcFold_own_bytes]

end Sys2Proof

namespace Sys2Proof.Machine

/-! ## CRC.INIT and CRC.BYTE (R111, R112) -/

theorem onlyRegs_setCrc (v : Word) (s : State) : OnlyRegs [.crc] s { s with crc := v } := by
  refine ⟨fun r hr => ?_, fun _ => rfl, fun _ => rfl, ⟨rfl, rfl, rfl⟩, rfl, rfl, rfl⟩
  cases r with
  | crc => simp at hr
  | _ => rfl

theorem encode_crcByte (b : Byte) : encode (.crcByte b) = .command ((b.setWidth 16 <<< 8) ||| 0x0002#16) := by
  have happend : b ++ (0#4 ++ 2#4) = (b.setWidth 16 <<< 8) ||| 0x0002#16 := by
    rw [BitVec.append_def, BitVec.shiftLeftZeroExtend_eq]
    rfl
  exact congrArg InstrWord.command (BitVec.append_assoc.trans happend)

/-- Settles O8: the word's decoding and its effect by evaluation; with opcode 1 the other words have a reserved bit set. -/
theorem crcInitResetsAccumulator : Obligations.CrcInitResetsAccumulator := by
  refine fun s => ⟨rfl, ⟨_, rfl, rfl, onlyRegs_setCrc _ s⟩, fun w hop hw => ?_⟩
  have hhigh : w.toNat / 16 ≠ 0 := fun h0 => hw (BitVec.eq_of_toNat_eq (by rw [BitVec.toNat_ofNat]; omega))
  exact command_reservedBits (reservedBitsSet_iff.mpr (.inl ⟨by simp [hop], hhigh⟩)) s

/-- Settles O9: the word is the encoding of CRC.BYTE, and its effect is the byte's XOR and eight iterations. -/
theorem crcByteFoldsOneByte : Obligations.CrcByteFoldsOneByte := by
  intro b s
  have hdecode : decode (encode (.crcByte b)) = .ok (.crcByte b) := decodeOfEncodeIsInstruction _ rfl
  rw [encode_crcByte] at hdecode
  refine ⟨decode_command_eq_ok.mp hdecode, ⟨_, rfl, ?_, onlyRegs_setCrc _ s⟩, fun w hop hfn => ?_⟩
  · exact crcShifts_eq_iterate 8 _
  · exact command_reservedBits (reservedBitsSet_iff.mpr (.inr (.inl ⟨hop, hfn⟩))) s

end Sys2Proof.Machine
end

section
/-! PROOFS. Single-bit error detection (41_crc.md R113): no register and no byte gets lost in the CRC, so two sequences that
differ in one byte have different CRCs. -/

namespace Sys2Proof

/-! ## The CRC loses nothing -/

theorem crcUpdate_injective {c d : Word} {b : Byte} (h : crcUpdate c b = crcUpdate d b) : c = d :=
  (BitVec.xor_left_inj _).mp (crcShifts_injective 8 h)

theorem crcUpdate_byte_injective {c : Word} {b b' : Byte} (h : crcUpdate c b = crcUpdate c b') : b = b' := by
  have hw := (BitVec.xor_right_inj _).mp (crcShifts_injective 8 h)
  simpa using congrArg (BitVec.setWidth 8) hw

theorem crcFold_injective {bs : List Byte} {c d : Word} (h : crcFold c bs = crcFold d bs) : c = d := by
  induction bs generalizing c d with
  | nil => exact h
  | cons b bs ih => exact crcUpdate_injective (ih h)

theorem crcFold_set_injective {bs : List Byte} {k : Nat} (hk : k < bs.length) {c : Word} {b b' : Byte}
    (h : crcFold c (bs.set k b) = crcFold c (bs.set k b')) : b = b' := by
  induction bs generalizing c k with
  | nil => simp at hk
  | cons x bs ih =>
    cases k with
    | zero => exact crcUpdate_byte_injective (crcFold_injective h)
    | succ k => exact ih (Nat.lt_of_succ_lt_succ hk) h

end Sys2Proof

namespace Sys2Proof.Machine

/-! ## Two buffers that differ in one byte -/

theorem prefixBytes_eq_set {n m k : Nat} {v w : Vector Byte n} (hm : m ≤ n)
    (h : ∀ i < m, i ≠ k → readBuf w i = readBuf v i) :
    prefixBytes w m = (prefixBytes v m).set k (readBuf w k) := by
  rw [prefixBytes_eq_map w m hm, prefixBytes_eq_map v m hm]
  refine List.ext_getElem (by simp) fun i hi _ => ?_
  have hi : i < m := by simpa using hi
  by_cases hik : i = k
  · simp [hik]
  · simp [Ne.symm hik, h i hi hik]

theorem le16_eq_iff {lo hi lo' hi' : Byte} : le16 lo hi = le16 lo' hi' ↔ lo = lo' ∧ hi = hi' := by
  refine ⟨fun h => ⟨?_, ?_⟩, fun ⟨hlo, hhi⟩ => by rw [hlo, hhi]⟩
  · simpa using congrArg loByte h
  · simpa using congrArg hiByte h

/-! ## `Check` of two such buffers (43_decode.md R140) -/

theorem check_ok_iff {L : Nat} {s : State} :
    (check L s).ok = true ↔ readRx 0 s = 0x55#8 ∧ (check L s).received = (check L s).computed := by
  simp [check, Config.start]

section
variable {s t : State} {L k : Nat} (hother : ∀ i < L, i ≠ k → readRx i t = readRx i s)
  (hne : readRx k t ≠ readRx k s)
include hother hne

theorem check_differs_before_trailer (hL : L ≤ 262) (hk : k + 2 < L) :
    (check L t).received = (check L s).received ∧ (check L t).computed ≠ (check L s).computed := by
  refine ⟨le16_eq_iff.mpr ⟨hother _ (by omega) (by omega), hother _ (by omega) (by omega)⟩, fun hcrc => hne ?_⟩
  have hbuf : L - 2 ≤ Config.rxBufSize := Nat.le_trans (Nat.sub_le L 2) hL
  have ht := prefixBytes_eq_set hbuf (v := s.rxBuf) (w := t.rxBuf) (k := k) fun i hi => hother i (by omega)
  have hs := prefixBytes_eq_set hbuf (v := s.rxBuf) (w := s.rxBuf) (k := k) fun _ _ _ => rfl
  have hlen : k < (prefixBytes s.rxBuf (L - 2)).length := by
    rw [prefixBytes_length _ _ hbuf]
    omega
  have hfold : crc16 (prefixBytes t.rxBuf (L - 2)) = crc16 (prefixBytes s.rxBuf (L - 2)) := hcrc
  rw [ht, hs, List.set_set] at hfold
  exact crcFold_set_injective hlen hfold

theorem check_differs_in_trailer (hL : L ≤ 262) (hk : k < L) (hkL : L ≤ k + 2) :
    (check L t).computed = (check L s).computed ∧ (check L t).received ≠ (check L s).received := by
  constructor
  · have hbuf : L - 2 ≤ Config.rxBufSize := Nat.le_trans (Nat.sub_le L 2) hL
    have hprefix : prefixBytes t.rxBuf (L - 2) = prefixBytes s.rxBuf (L - 2) := by
      rw [prefixBytes_eq_map _ _ hbuf, prefixBytes_eq_map _ _ hbuf]
      refine List.map_congr_left fun i hi => hother i ?_ ?_ <;> rw [List.mem_range] at hi <;> omega
    exact congrArg crc16 hprefix
  · intro h
    obtain ⟨hlo, hhi⟩ := le16_eq_iff.mp h
    rcases show k = L - 2 ∨ k = L - 1 by omega with rfl | rfl
    · exact hne hlo
    · exact hne hhi

/-- One of the two CRCs that `Check` compares differs and the other does not. -/
theorem check_not_ok_of_differs (hL : L ≤ 262) (hk : k < L) (hs : (check L s).ok = true) : (check L t).ok = false := by
  obtain ⟨-, hs⟩ := check_ok_iff.mp hs
  rw [← Bool.not_eq_true, check_ok_iff]
  rintro ⟨-, ht⟩
  rcases Nat.lt_or_ge (k + 2) L with hkL | hkL
  · obtain ⟨hr, hc⟩ := check_differs_before_trailer hother hne hL hkL
    exact hc (by rw [← ht, hr, hs])
  · obtain ⟨hc, hr⟩ := check_differs_in_trailer hother hne hL hk hkL
    exact hr (by rw [ht, hc, hs])

end

/-! ## VALIDATE -/

theorem exec_validate_inRange {s : State} (hb : s.busy = false) (h7 : 7 ≤ s.rxLen.toNat) (hL : s.rxLen.toNat ≤ 262) :
    exec .validate s = .next (validateFrame s.rxLen.toNat s) := by
  have hr : ¬(s.rxLen.toNat < Config.minLen ∨ Config.rxBufSize < s.rxLen.toNat) := by
    simp only [Config.minLen, Config.headerLen, Config.crcLen, Config.rxBufSize]
    omega
  refine congrArg Host.Outcome.next ((whenIdle_idle hb).trans ?_)
  rw [validateRx, if_neg hr]

theorem xor_bit_ne {j : Nat} (hj : j < 8) (b : Byte) : b ^^^ (1#8 <<< j) ≠ b := by
  intro h
  have hbit := congrArg (fun x : Byte => x.getLsbD j) h
  simp [hj] at hbit

/-- Settles O12: a byte with one bit flipped is another byte, so `Check` fails on one side of its comparison. -/
theorem singleBitFlipInvalidatesFrame : Obligations.SingleBitFlipInvalidatesFrame := by
  intro s t s' k j hbs hbt h7 hL hlen hs' hvalid hk hj hflip hother
  have hne : readRx k t ≠ readRx k s := by
    rw [hflip]
    exact xor_bit_ne hj _
  have ht' := exec_validate_inRange hbt (by rwa [hlen]) (by rwa [hlen])
  rw [exec_validate_inRange hbs h7 hL] at hs'
  cases hs'
  rw [hlen] at ht'
  obtain ⟨hstart, -⟩ := check_ok_iff.mp hvalid
  refine ⟨_, ht', check_not_ok_of_differs hother hne hL hk hvalid, check_differs_before_trailer hother hne hL,
    check_differs_in_trailer hother hne hL hk, ?_⟩
  rintro rfl
  rwa [hstart] at hne

end Sys2Proof.Machine
end

section
/-! PROOFS. The four ENCODE commands, and VALIDATE of what they build (42_encode.md R120 to R124; 43_decode.md R140,
R142). -/

namespace Sys2Proof

/-- Before its trailer an encoded frame is its body (30_encoding.md R80). -/
theorem encodeFrame_getD_body (f : Frame) {i : Nat} (hi : i < 5 + f.payload.length) :
    (encodeFrame f).getD i 0 = f.body.getD i 0 :=
  List.getD_append _ _ _ _ (by rwa [f.body_length])

end Sys2Proof

namespace Sys2Proof.Machine

/-! ## The request in `TxBuf` (R124) -/

theorem sameRegs_loadRequest (bs : List Byte) (s : State) : SameRegs [.txLen] s (loadRequest bs s) := by
  intro r hr
  cases r with
  | txLen => simp at hr
  | _ => rfl

theorem readTx_loadRequest {bs : List Byte} (hl : bs.length ≤ 8) {i : Nat} (hi : i < bs.length) (s : State) :
    readTx i (loadRequest bs s) = bs.getD i 0 :=
  readBuf_of_prefixBytes (prefixBytes_storeBytes s.txBuf hl) hi

theorem readTx_loadRequest_after {bs : List Byte} {i : Nat} (hi : bs.length ≤ i) (s : State) :
    readTx i (loadRequest bs s) = readTx i s :=
  readBuf_storeBytes_after bs s.txBuf 0 i (by rwa [Nat.zero_add])

theorem encodeFrame_requestFrame_length_le (fn : FnCode) (p : Bool) (s : State) :
    (encodeFrame (requestFrame fn p s)).length ≤ 8 := by
  have hpl : (requestFrame fn p s).payload.length ≤ 1 := requestPayload_length fn p s
  rw [encodeFrame_length]
  omega

/-- A frame of at most 8 bytes over the operand registers is built by loading it. -/
theorem requestBuilt_loadRequest {f : Frame} {s : State} (haddr : f.addr = s.encAddr) (hsub : f.sub = s.encSub)
    (hl : (encodeFrame f).length ≤ 8) : RequestBuilt f.fn f.payload s (loadRequest (encodeFrame f) s) := by
  have hlen := encodeFrame_length f
  have hread {i : Nat} (hi : i < 7 + f.payload.length) := readTx_loadRequest hl (hlen.symm ▸ hi) s
  obtain ⟨hlo, hhi⟩ := getD_body_append f (loByte (crc16 f.body)) (hiByte (crc16 f.body))
  unfold RequestBuilt
  rw [← haddr, ← hsub]
  refine ⟨fun i hi => ?_, ?_, ?_, fun i hi => ?_, ?_, sameRegs_loadRequest _ s, fun _ => rfl, ⟨rfl, rfl, rfl⟩,
    rfl, rfl, rfl⟩
  · exact (hread (by omega)).trans (encodeFrame_getD_body f hi)
  · exact (hread (by omega)).trans hlo
  · exact (hread (by omega)).trans hhi
  · exact readTx_loadRequest_after (hlen.symm ▸ hi) s
  · rw [readReg, BitVec.toNat_setWidth_of_le (by decide), loadRequest_txLen_toNat hl, hlen]

/-! ## The checks of ENCODE (30_encoding.md R100, R102) -/

theorem command_encode_reservedBits {w : Word} (hop : w.toNat % 16 = 3) (htop : 512 ≤ w.toNat) (s : State) :
    RefusedWith .reservedBits s (command w s) :=
  command_reservedBits (reservedBitsSet_iff.mpr (.inr (.inr ⟨hop, by omega⟩))) s

/-- An ENCODE command is refused while busy, then for its sub-address, else it builds its request. -/
theorem exec_encodeInstr_checks (fn : FnCode) (p : Bool) (s : State) :
    (s.busy = true → RefusedWith .busy s (exec (encodeInstr fn p) s)) ∧
    (s.busy = false → ¬addrOK fn s.encSub = true → RefusedWith .badAddress s (exec (encodeInstr fn p) s)) ∧
    (s.busy = false → addrOK fn s.encSub = true →
      ∃ t, exec (encodeInstr fn p) s = .next t ∧ RequestBuilt fn.code (requestPayload fn p s) s t) := by
  rw [exec_encodeInstr]
  refine ⟨fun hb => refusedWith_whenIdle hb _, fun hb ha => ?_, fun hb ha => ?_⟩
  · rw [encodeRequest, whenIdle_idle hb, if_neg ha]
    exact refusedWith_refuse _ s
  · rw [encodeRequest_accepted hb ha]
    exact ⟨_, rfl, requestBuilt_loadRequest rfl rfl (encodeFrame_requestFrame_length_le fn p s)⟩

/-- Settles O13: the words are those of format F2, and the sub-addresses are the data addresses. -/
theorem encReadBuildsReadRequest : Obligations.EncReadBuildsReadRequest := by
  intro p s
  have hword : (if p then 0x0113#16 else 0x0013#16) = encodeF2 .read p := by cases p <;> rfl
  obtain ⟨hbusy, hrefused, hbuilt⟩ := exec_encodeInstr_checks .read p s
  rw [addrOK_read_iff] at hrefused hbuilt
  rw [hword]
  exact ⟨decodeCommand_encodeF2 .read p, fun w hw htop => command_encode_reservedBits (by omega) htop s, hbusy,
    hrefused, hbuilt⟩

/-- Settles O14: the words are those of format F2, and the sub-addresses are the data addresses. -/
theorem encWriteBuildsWriteRequest : Obligations.EncWriteBuildsWriteRequest := by
  intro p s
  have hword : (if p then 0x0123#16 else 0x0023#16) = encodeF2 .write p := by cases p <;> rfl
  obtain ⟨hbusy, hrefused, hbuilt⟩ := exec_encodeInstr_checks .write p s
  rw [addrOK_write_iff] at hrefused hbuilt
  rw [hword]
  exact ⟨decodeCommand_encodeF2 .write p, fun w hw htop => command_encode_reservedBits (by omega) htop s, hbusy,
    hrefused, hbuilt⟩

/-- Settles O15: the words are those of format F2, and the sub-addresses are the control addresses. -/
theorem encControlBuildsControlRequest : Obligations.EncControlBuildsControlRequest := by
  intro p s
  have hword : (if p then 0x0133#16 else 0x0033#16) = encodeF2 .control p := by cases p <;> rfl
  obtain ⟨hbusy, hrefused, hbuilt⟩ := exec_encodeInstr_checks .control p s
  rw [addrOK_control_iff] at hrefused hbuilt
  rw [hword]
  exact ⟨decodeCommand_encodeF2 .control p, fun w hw htop => command_encode_reservedBits (by omega) htop s, hbusy,
    hrefused, hbuilt⟩

/-- Settles O16: the words are those of format F2, and every sub-address passes. -/
theorem encRequestBuildsRequestFrame : Obligations.EncRequestBuildsRequestFrame := by
  intro p s
  have hword : (if p then 0x0143#16 else 0x0043#16) = encodeF2 .request p := by cases p <;> rfl
  obtain ⟨hbusy, -, hbuilt⟩ := exec_encodeInstr_checks .request p s
  rw [hword]
  exact ⟨decodeCommand_encodeF2 .request p, fun w hw htop => command_encode_reservedBits (by omega) htop s, hbusy,
    fun hb => hbuilt hb rfl⟩

/-! ## The request copied into `RxBuf` (R124, 43_decode.md R140) -/

theorem prefixBytes_congr {n m L : Nat} {v : Vector Byte n} {w : Vector Byte m} (hn : L ≤ n) (hm : L ≤ m)
    (h : ∀ i < L, readBuf v i = readBuf w i) : prefixBytes v L = prefixBytes w L := by
  rw [prefixBytes_eq_map v L hn, prefixBytes_eq_map w L hm]
  exact List.map_congr_left fun i hi => h i (List.mem_range.mp hi)

/-- Settles O17: the copy in `RxBuf` is the encoded frame, whose trailer is the CRC16 of its body. -/
theorem encodedRequestValidates : Obligations.EncodedRequestValidates := by
  intro fn p s t u hs ha ht hu hlen hcopy
  rw [exec_encodeInstr, encodeRequest_accepted hs ha] at ht
  cases ht
  have hpl : (requestFrame fn p s).payload.length ≤ 1 := requestPayload_length fn p s
  have hl := encodeFrame_requestFrame_length_le fn p s
  have hsent := prefixBytes_loadRequest hl s
  generalize requestFrame fn p s = f at *
  rw [loadRequest_txLen_toNat hl] at hlen hcopy hsent
  have hbuf : prefixBytes u.rxBuf (encodeFrame f).length = encodeFrame f :=
    (prefixBytes_congr (Nat.le_trans hl (by decide)) hl hcopy).trans hsent
  have hvalid := validateRx_encodedFrame hbuf ((Frame.wf_iff f).mpr (by omega)) (hlen.trans (encodeFrame_length f))
  refine ⟨validateRx u, congrArg Host.Outcome.next (whenIdle_idle hu), ?_⟩
  rw [hvalid]
  exact ⟨rfl, rfl⟩

end Sys2Proof.Machine
end

section
/-! PROOFS. The views of `RxBuf`, and VALIDATE with its refusals and its two outcomes (43_decode.md R140, R142, R150 to
R154). -/

namespace Sys2Proof.Machine

/-! ## The views (R150 to R154) -/

/-- A byte that a view shows zero-extended keeps its value (10_state.md R22). -/
theorem toNat_setWidth_byte (b : Byte) : (b.setWidth 16).toNat = b.toNat := BitVec.toNat_setWidth_of_le (by decide)

/-- Settles O19: every view is a byte of `RxBuf`, zero-extended, or two of them, low byte first. -/
theorem viewsReadReceiveBuffer : Obligations.ViewsReadReceiveBuffer := by
  intro s
  have hidx : (readReg .dataIdx s).toNat = s.dataIdx.toNat := toNat_setWidth_byte _
  rw [hidx]
  refine ⟨le16_toNat _ _, toNat_setWidth_byte _, toNat_setWidth_byte _, toNat_setWidth_byte _, toNat_setWidth_byte _, ?_⟩
  have hbyte := s.dataIdx.isLt
  omega

/-! ## Words with a bit of 15:4 set where all are reserved (30_encoding.md R90, R102) -/

/-- Of the words with an opcode that leaves bits 15:4 reserved, all but the opcode's own are refused. -/
theorem command_reservedHighBits {w : Word} {op : Nat} (ho : op ∈ [1, 4, 5, 6, 7]) (hop : w.toNat % 16 = op)
    (hw : w ≠ BitVec.ofNat 16 op) (s : State) : RefusedWith .reservedBits s (command w s) := by
  have hhigh : w.toNat / 16 ≠ 0 := fun h0 => hw (BitVec.eq_of_toNat_eq (by rw [BitVec.toNat_ofNat]; omega))
  exact command_reservedBits (reservedBitsSet_iff.mpr (.inl ⟨hop.symm ▸ ho, hhigh⟩)) s

/-! ## What a length out of range leaves (R142) -/

theorem exec_validate_outOfRange {s : State} (hb : s.busy = false) (hl : s.rxLen.toNat < 7 ∨ 262 < s.rxLen.toNat) :
    exec .validate s = .next { s with valid := false } :=
  congrArg Host.Outcome.next ((whenIdle_idle hb).trans (if_pos hl))

theorem statusWord_clearValid (s : State) : statusWord { s with valid := false } = statusWord s &&& 0xFFEF#16 := by
  apply BitVec.eq_of_getLsbD_eq
  intro i hi
  rw [BitVec.getLsbD_and, statusWord_getLsbD _ hi, statusWord_getLsbD s hi]
  interval_cases i <;> simp [State.busy]

theorem onlyRegs_clearValid (s : State) : OnlyRegs [.status] s { s with valid := false } := by
  refine ⟨fun r hr => ?_, fun _ => rfl, fun _ => rfl, ⟨rfl, rfl, rfl⟩, rfl, rfl, rfl⟩
  cases r with
  | status => simp at hr
  | _ => rfl

/-! ## What a latched validation leaves (R142) -/

theorem valid_bit_statusWord (s : State) : (statusWord s).getLsbD 4 = s.valid := statusWord_getLsbD s (by decide)

/-- With VALID cleared the latched state and the one before have the same STATUS. -/
theorem sameStatusBut_latchCheck (c : CheckResult) (s : State) : SameStatusBut 0x0010#16 s (latchCheck c s) :=
  (statusWord_clearValid (latchCheck c s)).symm.trans (statusWord_clearValid s)

theorem onlyRegs_latchCheck (c : CheckResult) (s : State) :
    OnlyRegs [.status, .rxCrcCalc, .rxCrcRecv] s (latchCheck c s) := by
  refine ⟨fun r hr => ?_, fun _ => rfl, fun _ => rfl, ⟨rfl, rfl, rfl⟩, rfl, rfl, rfl⟩
  cases r with
  | status | rxCrcCalc | rxCrcRecv => simp at hr
  | _ => rfl

/-- The CRC that `Check(L)` computes is over the bytes of `RxBuf` before the trailer (R140). -/
theorem check_computed {L : Nat} (hL : L ≤ 262) (s : State) : (check L s).computed = crc16 (rxBytes (L - 2) s) :=
  congrArg crc16 (prefixBytes_eq_map s.rxBuf (L - 2) (Nat.le_trans (Nat.sub_le L 2) hL))

/-- Settles O18: VALIDATE is refused, clears VALID, or latches `Check` of `RxBuf[0..RX_LEN)`. -/
theorem validateChecksFrame : Obligations.ValidateChecksFrame := by
  refine fun s => ⟨fun w hop hw => command_reservedHighBits (by decide) hop hw s, fun hb => refusedWith_whenIdle hb _,
    fun hb hl => ?_, fun hb h7 hL => ?_⟩
  · exact ⟨_, exec_validate_outOfRange hb hl, statusWord_clearValid s, onlyRegs_clearValid s⟩
  · refine ⟨_, exec_validate_inRange hb h7 hL, check_computed hL s, le16_toNat _ _, ?_, sameStatusBut_latchCheck _ s,
      onlyRegs_latchCheck _ s⟩
    rw [valid_bit_statusWord]
    exact check_ok_iff

end Sys2Proof.Machine
end

section
/-! PROOFS. The wire carries the running transaction's request and nothing else (44_transaction.md R174). -/

namespace Sys2Proof.Machine

/-- A transmit step appends the byte after those sent so far (R171). -/
theorem sentSoFar_sendByte {before : List Byte} {s : State} (hs : s.Inv) (hp : s.phase = .tx) (h : SentSoFar before s) :
    SentSoFar before (sendByte s) := by
  obtain ⟨hlen, hidx, -⟩ := hs.in_tx hp
  have hroom : s.txIdx.toNat < Config.txBufSize := by
    rcases hlen with hl | hl <;> rw [hl] at hidx <;> exact Nat.lt_of_lt_of_le hidx (by decide)
  have hnext : (s.txIdx + 1).toNat = s.txIdx.toNat + 1 := by bv_omega
  rw [SentSoFar] at h ⊢
  rw [sendByte_wireOut, sendByte_txBuf, sendByte_txIdx, hnext, prefixBytes_succ _ _ hroom, h, List.append_assoc, readTx]

/-- While busy only a reset touches `TxBuf` or TX_LEN (20_memory.md R61). -/
theorem Effect.keeps_request {s t : State} {e : Event} (H : Effect s e t) (hb : s.phase ≠ .idle) (hr : e ≠ .reset) :
    t.txBuf = s.txBuf ∧ t.txLen = s.txLen := by
  cases H with
  | lengths _ _ _ _ hi | buffers _ _ _ _ hi | encoded _ _ _ _ hi => exact absurd hi hb
  | reset => exact absurd rfl hr
  | _ => exact ⟨rfl, rfl⟩

/-- While busy the trace, TX_IDX and `TxBuf` move together: only the transmit steps and a reset touch any of them. -/
theorem Effect.keeps_sentSoFar {before : List Byte} {s t : State} {e : Event} (H : Effect s e t) (hs : s.Inv)
    (hb : s.phase ≠ .idle) (hr : e ≠ .reset) (h : SentSoFar before s) : SentSoFar before t := by
  cases H with
  | sent hp | sentLast hp => exact sentSoFar_sendByte hs hp h
  | buffers _ _ _ _ hi | encoded _ _ _ _ hi | started _ _ hi => exact absurd hi hb
  | reset => exact absurd rfl hr
  | _ => exact h

/-- The trace grows in TX only. -/
theorem Effect.keeps_wireOut_idle {s t : State} {e : Event} (H : Effect s e t) (hi : s.phase = .idle) :
    t.wireOut = s.wireOut := by
  rcases H.wireOut_kept_or_sent with h | ⟨-, hp, -, -⟩
  · exact h
  · exact nomatch hi.symm.trans hp

/-- Settles O49, by the effects that touch the trace, TX_IDX or the request. -/
theorem wireCarriesOneRequestAtATime : Obligations.WireCarriesOneRequestAtATime := by
  intro s t hs H
  obtain ⟨a, d, he⟩ := effect_of_step H
  refine ⟨fun hb => he.keeps_wireOut_idle ((not_busy_iff s).mp hb), fun before hb hr h => ?_⟩
  have hphase := (busy_iff s).mp hb
  exact ⟨he.keeps_sentSoFar (hs.with_outside a d) hphase hr h, he.keeps_request hphase hr⟩

end Sys2Proof.Machine
end

section
/-! PROOFS. XACT and FLUSH (44_transaction.md R160, R165, R180). -/

namespace Sys2Proof.Machine

/-! ## XACT (R160, R165) -/

/-- The reply length by the function code in `TxBuf[3]`: none for REQUEST and for a byte that is no code (R160). -/
theorem replyLen_toNat (s : State) :
    (replyLen s).map BitVec.toNat =
      if readTx 3 s ∈ [0x01#8, 0x02#8, 0x03#8] then
        some (if readTx 3 s = 0x01#8 then 7 + (readTx 5 s).toNat else if readTx 3 s = 0x02#8 then 8 else s.txLen.toNat)
      else none := by
  cases hf : FnCode.ofCode (readTx 3 s) with
  | some fn =>
    have hlen : replyLen s = replyLenOf fn s := by simp only [replyLen, hf]
    rw [hlen, replyLenOf_toNat, FnCode.code_of_ofCode hf]
    cases fn <;> rfl
  | none =>
    have hcode : readTx 3 s ∉ [0x01#8, 0x02#8, 0x03#8] := by
      intro h
      simp only [List.mem_cons, List.not_mem_nil, or_false] at h
      rcases h with h | h | h <;> rw [h] at hf <;> cases hf
    have hlen : replyLen s = none := by simp only [replyLen, hf]
    rw [hlen, if_neg hcode]
    rfl

/-- Settles O20: the checks of R165, for the reply length of the function code in `TxBuf[3]`. -/
theorem xactChecksThenStarts : Obligations.XactChecksThenStarts := by
  refine fun s => ⟨fun w hop hw => command_reservedHighBits (by decide) hop hw s, fun hb => refusedWith_whenIdle hb _,
    fun hb => ⟨_, rfl, ?_⟩⟩
  have hchecks := startTransaction_checks s (replyLen_toNat s)
  rw [whenIdle_idle hb]
  by_cases hcode : readTx 3 s ∈ [0x01#8, 0x02#8, 0x03#8]
  · rw [if_neg (not_not_intro hcode)]
    rwa [if_pos hcode, if_neg (Option.some_ne_none _)] at hchecks
  · rw [if_pos hcode]
    rwa [if_neg hcode, if_pos rfl] at hchecks

/-- Settles O22: with a function code in `TxBuf[3]` both transact with that code's reply length. -/
theorem xactRunsFrameInTxBuf : Obligations.XactRunsFrameInTxBuf := fun _ _ hf => exec_xact_of_fnByte hf

/-! ## FLUSH (R180) -/

/-- Only FIFO_COUNT shows how many bytes the FIFO holds (10_state.md R54). -/
theorem sameRegs_setFifo (bs : List Byte) (s : State) : SameRegs [.fifoCount] s { s with fifo := bs } := by
  intro r hr
  cases r with
  | fifoCount => simp at hr
  | _ => rfl

/-- Settles O23: FLUSH is refused or empties the FIFO, which only FIFO_COUNT shows. -/
theorem flushEmptiesFifo : Obligations.FlushEmptiesFifo := by
  refine fun s => ⟨fun w hop hw => command_reservedHighBits (by decide) hop hw s, fun hb => refusedWith_whenIdle hb _,
    fun hb => ⟨{ s with fifo := [] }, congrArg Host.Outcome.next (whenIdle_idle hb), ?_⟩⟩
  exact ⟨rfl, rfl, sameRegs_setFifo [] s, fun _ => rfl, fun _ => rfl, rfl, rfl, rfl, rfl, rfl⟩

end Sys2Proof.Machine
end

section
/-! PROOFS. The line's steps, and what is enabled while a reply is awaited (44_transaction.md R170, R175, R177, R178). -/

namespace Sys2Proof.Machine

/-! ## The end of a running transaction (R170) -/

theorem statusWord_finish (r : Result) (s : State) :
    statusWord (finish r s) = (r.code.setWidth 16 <<< 8) ||| (statusWord s &&& 0x00F0#16) ||| 0x0008#16 := by
  apply BitVec.eq_of_getLsbD_eq
  intro i hi
  simp only [BitVec.getLsbD_or, BitVec.getLsbD_and, BitVec.getLsbD_shiftLeft, BitVec.getLsbD_setWidth,
    statusWord_getLsbD _ hi]
  interval_cases i <;> simp [State.busy, Phase.code]

theorem finishedWith_finish (r : Result) (s : State) : FinishedWith r s (finish r s) := by
  refine ⟨statusWord_finish r s, fun q hq => ?_, fun _ => rfl, fun _ => rfl, ⟨rfl, rfl, rfl⟩, rfl, rfl, rfl⟩
  cases q with
  | status => simp at hq
  | _ => rfl

/-! ## What is enabled -/

theorem engine_enabled_rx_iff {s : State} (hp : s.phase = .rx) :
    enabled .engine s = true ↔ s.fifo ≠ [] ∨ s.linkOpen = false := by
  simp [enabled, engineEnabled, hp]

theorem timeout_enabled_iff (s : State) :
    enabled .timeout s = true ↔ s.phase = .rx ∧ s.fifo = [] ∧ s.linkOpen = true := by
  simp [enabled, timeoutEnabled, and_assoc]

/-- Settles O26, by the guards of the engine and the line. -/
theorem eventsEnabledWhileWaiting : Obligations.EventsEnabledWhileWaiting := by
  refine fun s hp hf => ⟨fun hk => ⟨(timeout_enabled_iff s).mpr ⟨hp, hf, hk⟩, fun _ => hk, hk, ?_, ?_⟩,
    fun hk => ⟨(engine_enabled_rx_iff hp).mpr (.inr hk), ?_, ?_, fun _ => hk, hk⟩⟩
  · rw [← Bool.not_eq_true, engine_enabled_rx_iff hp]
    simp [hf, hk]
  · simp [enabled, hk]
  · simp [enabled, hk]
  · rw [← Bool.not_eq_true, timeout_enabled_iff]
    simp [hk]

/-! ## Timeout (R177) -/

/-- Settles O29: a timeout is the `finish` of the running transaction with READ_TIMEOUT. -/
theorem timeoutEndsTransaction : Obligations.TimeoutEndsTransaction := by
  refine fun s => ⟨timeout_enabled_iff s, fun hp hf hk => ⟨finish .readTimeout s, ?_, finishedWith_finish _ s⟩⟩
  exact perform_enabled ((timeout_enabled_iff s).mpr ⟨hp, hf, hk⟩)

/-! ## Byte delivery (R175) -/

theorem perform_deliver {s : State} (hk : s.linkOpen = true) (b : Byte) :
    perform (.deliver b) s = .next (deliverInto Config.rxFifoDepth b s) := perform_enabled hk

theorem statusWord_setRxOvf (s : State) : statusWord { s with rxOvf := true } = statusWord s ||| 0x0040#16 := by
  apply BitVec.eq_of_getLsbD_eq
  intro i hi
  rw [BitVec.getLsbD_or, statusWord_getLsbD _ hi, statusWord_getLsbD s hi]
  interval_cases i <;> simp [State.busy]

theorem sameRegs_setRxOvf (s : State) : SameRegs [.status] s { s with rxOvf := true } := by
  intro r hr
  cases r with
  | status => simp at hr
  | _ => rfl

/-- Settles O27: with room the FIFO grows by the byte, else RX_OVF is set. -/
theorem lineDeliversByte : Obligations.LineDeliversByte := by
  refine fun b s => ⟨rfl, fun hk => ⟨_, perform_deliver hk b, ?_⟩⟩
  rcases deliverInto_cases Config.rxFifoDepth b s with ⟨hl, he⟩ | ⟨hl, he⟩ <;> rw [he]
  · rw [if_pos hl]
    exact ⟨fun _ => rfl, fun _ => rfl, rfl, rfl, ⟨rfl, rfl, rfl⟩, rfl, sameRegs_setFifo _ s⟩
  · rw [if_neg (Nat.not_lt.mpr hl)]
    exact ⟨fun _ => rfl, fun _ => rfl, rfl, rfl, ⟨rfl, rfl, rfl⟩, rfl, statusWord_setRxOvf s, sameRegs_setRxOvf s⟩

end Sys2Proof.Machine
end

section
/-! PROOFS. The engine's transmit and receive steps (44_transaction.md R170 to R173). -/

namespace Sys2Proof.Machine

/-! ## The transmit step (R171) -/

theorem engine_enabled_tx {s : State} (hp : s.phase = .tx) : enabled .engine s = true := by
  rw [enabled, engineEnabled, hp]

theorem perform_engine_tx {s : State} (hp : s.phase = .tx) : perform .engine s = .next (engineTx s) := by
  rw [perform_enabled (engine_enabled_tx hp), happen, engineStep, hp]

/-- With the link open a transmit step sends a byte; the phase after it says whether that was the last. -/
theorem engineTx_linkOpen {s : State} (hp : s.phase = .tx) (hk : s.linkOpen = true) :
    engineTx s = { sendByte s with phase := if s.txIdx + 1 = s.txLen then .rx else .tx } := by
  rcases engineTx_cases s with ⟨hc, -⟩ | ⟨-, hl, he⟩ | ⟨-, hl, he⟩
  · exact nomatch hk.symm.trans hc
  · rw [he, if_pos hl]
  · rw [he, if_neg hl, ← hp]
    rfl

/-- Between two busy phases STATUS changes in the PHASE bits only (10_state.md R24, R25). -/
theorem sameStatusBut_setPhase {s : State} {p : Phase} (hs : s.phase ≠ .idle) (hp : p ≠ .idle) :
    SameStatusBut 0x0006#16 s { s with phase := p } := by
  apply BitVec.eq_of_getLsbD_eq
  intro i hi
  rw [BitVec.getLsbD_and, BitVec.getLsbD_and, statusWord_getLsbD _ hi, statusWord_getLsbD s hi]
  interval_cases i <;> simp [State.busy, bne_iff_ne.mpr hs, bne_iff_ne.mpr hp]

theorem sameRegs_sendByte (p : Phase) (s : State) : SameRegs [.status, .txIdx] s { sendByte s with phase := p } := by
  intro r hr
  cases r with
  | status | txIdx => simp at hr
  | _ => rfl

/-- Settles O24: no step in IDLE, the `finish` on a closed link, else `sendByte` and the next phase. -/
theorem engineTransmitsOneByte : Obligations.EngineTransmitsOneByte := by
  refine fun s => ⟨fun hp => ?_, fun hp => ⟨engine_enabled_tx hp, fun hk => ?_, fun hk => ?_⟩⟩
  · have hen : enabled .engine s = false := by rw [enabled, engineEnabled, hp]
    exact ⟨hen, perform_disabled hen⟩
  · have he : engineTx s = finish .connectionClosed s := if_neg (by simp [hk])
    exact ⟨_, perform_engine_tx hp, he ▸ finishedWith_finish _ s⟩
  · refine ⟨_, (perform_engine_tx hp).trans (congrArg _ (engineTx_linkOpen hp hk)), rfl, rfl, rfl, ?_,
      sameRegs_sendByte _ s, fun _ => rfl, fun _ => rfl, rfl, rfl, rfl, rfl, rfl⟩
    exact sameStatusBut_setPhase (by simp [hp]) (by split <;> simp)

/-! ## The receive step (R172) -/

theorem perform_engine_rx {s : State} (hp : s.phase = .rx) (hen : s.fifo ≠ [] ∨ s.linkOpen = false) :
    perform .engine s = .next (engineRx s) := by
  rw [perform_enabled ((engine_enabled_rx_iff hp).mpr hen), happen, engineStep, hp]

/-- What every receive step leaves, whether or not the byte is the last: `b` stored at `RxBuf[RX_LEN]`, `rest` in the FIFO,
and nothing else changed but what a validation and an end of the transaction write. -/
structure ByteStored (b : Byte) (rest : List Byte) (s t : State) : Prop where
  fifo : t.fifo = rest
  rxLen : t.rxLen.toNat = s.rxLen.toNat + 1
  stored : readRx s.rxLen.toNat t = b
  otherRx : ∀ i, i ≠ s.rxLen.toNat → readRx i t = readRx i s
  tx : SameTx s t
  link : t.linkOpen = s.linkOpen
  wire : t.wireOut = s.wireOut
  outside : SameOutside s t
  regs : SameRegs [.status, .rxLen, .fifoCount, .rxCrcCalc, .rxCrcRecv, .rxAddr, .rxFn, .rxSub, .rxDlen, .dataAt] s t

theorem byteStored_receiveByte {s : State} (hlen : s.rxLen.toNat < 262) (b : Byte) (rest : List Byte) :
    ByteStored b rest s (receiveByte b rest s) where
  fifo := rfl
  rxLen := by rw [receiveByte_rxLen]; bv_omega
  stored := readBuf_writeBuf_same s.rxBuf _ b hlen
  otherRx i hi := readBuf_writeBuf_other s.rxBuf _ i b hi.symm
  tx _ := rfl
  link := rfl
  wire := rfl
  outside := ⟨rfl, rfl, rfl⟩
  regs r hr := by
    cases r with
    | status | rxLen | fifoCount | rxCrcCalc | rxCrcRecv | rxAddr | rxFn | rxSub | rxDlen | dataAt => simp at hr
    | _ => rfl

/-- A validation and the end of the transaction touch STATUS and the two CRC registers only. -/
theorem ByteStored.finishReception {b : Byte} {rest : List Byte} {s u : State} (h : ByteStored b rest s u) :
    ByteStored b rest s (finishReception u) where
  fifo := h.fifo
  rxLen := h.rxLen
  stored := h.stored
  otherRx := h.otherRx
  tx := h.tx
  link := h.link
  wire := h.wire
  outside := h.outside
  regs r hr := by
    have hu := h.regs r hr
    cases r with
    | status | rxCrcCalc | rxCrcRecv => simp at hr
    | _ => exact hu

/-- The end of a reception changes RESULT, VALID, DONE, PHASE and BUSY in STATUS (10_state.md R24). -/
theorem sameStatusBut_finishReception (s : State) : SameStatusBut 0x0F1F#16 s (finishReception s) := by
  rw [SameStatusBut, finishReception, statusWord_finish]
  apply BitVec.eq_of_getLsbD_eq
  intro i hi
  simp only [BitVec.getLsbD_or, BitVec.getLsbD_and, BitVec.getLsbD_shiftLeft, BitVec.getLsbD_setWidth,
    statusWord_getLsbD _ hi]
  interval_cases i <;> simp

/-- A complete reception latches `Check` of the reply and ends the transaction with OK exactly when the frame is valid. -/
theorem finishReception_outcome {u : State} (hL : u.rxLen.toNat ≤ 262) :
    (finishReception u).rxCrcCalc = crc16 (rxBytes (u.rxLen.toNat - 2) u) ∧
    (finishReception u).rxCrcRecv.toNat =
      (readRx (u.rxLen.toNat - 2) u).toNat + 256 * (readRx (u.rxLen.toNat - 1) u).toNat ∧
    ((finishReception u).valid = true ↔
      readRx 0 u = 0x55#8 ∧ (finishReception u).rxCrcRecv = (finishReception u).rxCrcCalc) ∧
    (finishReception u).result = (if (finishReception u).valid = true then Result.ok else Result.invalidFrame) ∧
    (finishReception u).done = true ∧ (finishReception u).phase = .idle :=
  ⟨check_computed hL u, le16_toNat _ _, check_ok_iff, rfl, rfl, rfl⟩

/-- Settles O25: the `finish` on an empty FIFO, else `receiveByte`, which stays inside `RxBuf`, and at the last byte the
validation of the whole reply. -/
theorem engineReceivesOneByte : Obligations.EngineReceivesOneByte := by
  refine fun s hs hp => ⟨engine_enabled_rx_iff hp, fun hf hk => ?_, fun b rest hf => ?_⟩
  · have he : engineRx s = finish .connectionClosed s := by rw [engineRx, hf]
    exact ⟨_, perform_engine_rx hp (.inr hk), he ▸ finishedWith_finish _ s⟩
  obtain ⟨-, h7, h262, hroom⟩ := hs.in_rx hp
  have hu := byteStored_receiveByte (Nat.lt_of_lt_of_le hroom h262) b rest
  have hlast : s.rxLen + 1 = s.rxExp ↔ s.rxLen.toNat + 1 = s.rxExp.toNat := by
    rw [← BitVec.toNat_inj, ← receiveByte_rxLen b rest, hu.rxLen]
  have hperform := perform_engine_rx hp (.inl (by simp [hf]))
  simp only [engineRx, hf] at hperform
  by_cases hl : s.rxLen + 1 = s.rxExp
  · have ht := hu.finishReception
    rw [if_pos hl] at hperform
    refine ⟨_, hperform, ht.fifo, ht.rxLen, ht.stored, ht.otherRx, ht.tx, ht.link, ht.wire, ht.outside, ht.regs, ?_⟩
    have hL : (receiveByte b rest s).rxLen.toNat = s.rxExp.toNat := congrArg BitVec.toNat hl
    have hcrcByte : readRx (s.rxExp.toNat - 1) (receiveByte b rest s) = b := by
      rw [← hlast.mp hl, Nat.add_sub_cancel]
      exact hu.stored
    obtain ⟨hcalc, hrecv, hvalid, hresult, hdone, hphase⟩ := finishReception_outcome (hL ▸ h262)
    rw [hL] at hcalc hrecv
    rw [hcrcByte] at hrecv
    rw [if_pos (hlast.mp hl)]
    exact ⟨hcalc, hrecv, hvalid, hresult, hdone, hphase, sameStatusBut_finishReception (receiveByte b rest s)⟩
  · rw [if_neg hl] at hperform
    refine ⟨_, hperform, hu.fifo, hu.rxLen, hu.stored, hu.otherRx, hu.tx, hu.link, hu.wire, hu.outside, hu.regs, ?_⟩
    rw [if_neg (mt hlast.mpr hl)]
    exact ⟨rfl, rfl, rfl⟩

end Sys2Proof.Machine
end

section
/-! PROOFS. CLEAR (45_status.md R190). -/

namespace Sys2Proof.Machine

/-- Of STATUS, CLEAR keeps BUSY, PHASE, VALID and LINK (R190; the bits are those of 10_state.md R24). -/
theorem statusWord_clearStatus (s : State) : statusWord (clearStatus s) = statusWord s &&& 0x0097#16 := by
  apply BitVec.eq_of_getLsbD_eq
  intro i hi
  rw [BitVec.getLsbD_and, statusWord_getLsbD _ hi, statusWord_getLsbD s hi]
  interval_cases i <;> simp [State.busy, Result.code]

theorem onlyRegs_clearStatus (s : State) : OnlyRegs [.status, .cmdErr] s (clearStatus s) := by
  refine ⟨fun r hr => ?_, fun _ => rfl, fun _ => rfl, ⟨rfl, rfl, rfl⟩, rfl, rfl, rfl⟩
  cases r with
  | status | cmdErr => simp at hr
  | _ => rfl

/-- Settles O31: CLEAR is `clearStatus` in every state; with opcode 7 the other words have a reserved bit set. -/
theorem clearClearsLatchedStatus : Obligations.ClearClearsLatchedStatus :=
  fun s => ⟨fun _ hop hw => command_reservedHighBits (by decide) hop hw s,
    clearStatus s, rfl, statusWord_clearStatus s, rfl, onlyRegs_clearStatus s⟩

end Sys2Proof.Machine
end

section
/-! PROOFS. The outcomes the block latches: DONE with RESULT and CMD_ERR with CMDERR (60_exceptions.md R200, R201), both
without a trap (R205). -/

namespace Sys2Proof.Machine

/-! ## The latched outcomes agree (R200, R201, R241) -/

/-- While idle a result may be held and VALID may be set. -/
theorem State.OutcomesAgree.of_idle {s : State} (hp : s.phase = .idle) (hd : s.done = true ↔ s.result ≠ .none)
    (hc : s.cmdErr = true ↔ s.cmdErrCode ≠ .none) : s.OutcomesAgree where
  done_iff_result := hd
  cmd_err_iff_code := hc
  busy_pending hb := absurd hp ((busy_iff s).mp hb)

/-- With DONE and RESULT cleared, a busy block is asked for VALID = 0 only. -/
theorem State.OutcomesAgree.of_no_result {s : State} (hd : s.done = false) (hr : s.result = .none)
    (hc : s.cmdErr = true ↔ s.cmdErrCode ≠ .none) (hv : s.busy = true → s.valid = false) : s.OutcomesAgree where
  done_iff_result := by simp [hd, hr]
  cmd_err_iff_code := hc
  busy_pending hb := ⟨hd, hv hb⟩

/-- What the block's surroundings hold is no part of the outcomes. -/
theorem State.OutcomesAgree.with_outside {s : State} (hs : s.OutcomesAgree) (a : List Event) (d : Nat) :
    State.OutcomesAgree { s with agenda := a, draws := d } :=
  ⟨hs.done_iff_result, hs.cmd_err_iff_code, hs.busy_pending⟩

/-- The end of a transaction latches DONE with its result and leaves the block idle (44_transaction.md R170). -/
theorem outcomesAgree_finish {r : Result} {s : State} (hr : r ≠ .none) (hc : s.cmdErr = true ↔ s.cmdErrCode ≠ .none) :
    (finish r s).OutcomesAgree :=
  .of_idle rfl ⟨fun _ => hr, fun _ => rfl⟩ hc

/-- A refusal latches CMD_ERR with its code and touches neither the result nor the phase (R201). -/
theorem outcomesAgree_refuse {c : RefusalCode} {s : State} (hc : c ≠ .none) (hs : s.OutcomesAgree) :
    (refuse c s).OutcomesAgree :=
  ⟨hs.done_iff_result, ⟨fun _ => hc, fun _ => rfl⟩, hs.busy_pending⟩

/-- A complete reception always holds a result (44_transaction.md R172). -/
theorem receptionResult_ne_none (ok : Bool) : receptionResult ok ≠ .none := by cases ok <;> decide

/-- No effect breaks the agreement: it latches an outcome with its flag, clears both together, happens while idle, where
VALID is free, or touches none of them. -/
theorem Effect.keeps_outcomesAgree {s t : State} {e : Event} (H : Effect s e t) (hs : s.OutcomesAgree) :
    t.OutcomesAgree := by
  obtain ⟨hd, hc, hb⟩ := hs
  cases H with
  | refused _ _ _ hr => exact outcomesAgree_refuse hr ⟨hd, hc, hb⟩
  | failedStart _ _ _ hr => exact outcomesAgree_finish hr hc
  | closed | timedOut => exact outcomesAgree_finish (by simp) hc
  | receivedLast => exact outcomesAgree_finish (receptionResult_ne_none _) hc
  | started => exact .of_no_result rfl rfl hc fun _ => rfl
  | cleared => exact .of_no_result rfl rfl (by simp) fun h => (hb h).2
  | reset => exact .of_no_result rfl rfl (by simp) fun _ => rfl
  | validateShort _ hi | validated _ hi => exact .of_idle hi hd hc
  | sentLast hp =>
    have hbusy : s.busy = true := (busy_iff s).mpr (by simp [hp])
    exact ⟨hd, hc, fun _ => hb hbusy⟩
  | nothing | hostRead | operand | lengths | buffers | crcCommand | encoded | flushed | sent | received | delivered
  | dropped | link => exact ⟨hd, hc, hb⟩

/-- Settles O48, by the case analysis over the effects of a step. -/
theorem stepKeepsOutcomesAgree : Obligations.StepKeepsOutcomesAgree := by
  intro s t hs H
  obtain ⟨a, d, he⟩ := effect_of_step H
  exact he.keeps_outcomesAgree (hs.with_outside a d)

/-- Settles O47: power-on latches no outcome. -/
theorem powerOnOutcomesAgree : Obligations.PowerOnOutcomesAgree :=
  ⟨.of_no_result rfl rfl (by decide) fun _ => rfl, rfl, rfl, rfl, rfl⟩

/-! ## No traps (R205) -/

/-- A word that decodes is executed, and every instruction answers; any other word is refused (30_encoding.md R100). -/
theorem command_answers_next (w : Word) (s : State) : ∃ t, command w s = .next t := by
  rcases command_cases w s with ⟨i, -, he⟩ | ⟨-, he⟩ | ⟨-, he⟩ <;> rw [he]
  · exact exec_answers_next i s
  · exact ⟨_, rfl⟩
  · exact ⟨_, rfl⟩

/-- Of a host's accesses only a write to `CMD` dispatches; the others answer at once (20_memory.md R61, R62). -/
theorem hostAccess_answers_next (h : Nat) (a : Access) (s : State) : ∃ t, hostAccess h a s = .next t := by
  cases a with
  | writeReg i v =>
    cases hr : Reg.ofIndex i with
    | none => exact ⟨s, by simp only [hostAccess, hr]⟩
    | some r =>
      by_cases hcmd : r = .cmd
      · simpa only [hostAccess, hr, hcmd] using command_answers_next v s
      · exact ⟨writeReg r v s, by simp only [hostAccess, hr]⟩
  | _ => exact ⟨_, rfl⟩

/-- An event that may happen answers, and one that may not leaves the state (00_scope.md R6). -/
theorem perform_answers_next (e : Event) (s : State) : ∃ t, perform e s = .next t := by
  rcases perform_cases e s with ⟨-, he⟩ | ⟨-, he⟩ <;> rw [he]
  · exact ⟨s, rfl⟩
  cases e with
  | host h a => exact hostAccess_answers_next h a s
  | _ => exact ⟨_, rfl⟩

/-- Settles O42: a step is the next event performed, and every event answers a next state. -/
theorem stepNeverStops : Obligations.StepNeverStops := fun s => perform_answers_next (nextEvent s) (takeEvent s)

end Sys2Proof.Machine
end

section
/-! PROOFS. The reset values (10_state.md R21, R24; 70_reset_and_hazards.md R230, R231). -/

namespace Sys2Proof.Machine

/-- Of STATUS the LINK bit alone is the word of a cleared block with that link (10_state.md R24, R31). -/
theorem statusWord_and_link (s : State) :
    statusWord s &&& 0x0080#16 = packStatus .none s.linkOpen false false false false .idle := by
  apply BitVec.eq_of_getLsbD_eq
  intro i hi
  rw [BitVec.getLsbD_and, statusWord_getLsbD s hi]
  interval_cases i <;> cases s.linkOpen <;> simp [packStatus, Result.code, Phase.code]

theorem statusWord_resetBlock (s : State) : statusWord (resetBlock s) = statusWord s &&& 0x0080#16 :=
  (statusWord_and_link s).symm

/-- Every register but STATUS, which shows the link, and the views of `RxBuf` reads after a reset as after power-on. -/
theorem sameRegs_resetBlock (s : State) :
    SameRegs [.status, .rxAddr, .rxFn, .rxSub, .rxDlen, .dataAt] State.reset (resetBlock s) := by
  intro r hr
  cases r with
  | status | rxAddr | rxFn | rxSub | rxDlen | dataAt => simp at hr
  | _ => rfl

/-- Settles O44: every field has its reset value, and of STATUS only the LINK bit is left. -/
theorem powerOnHasResetValues : Obligations.PowerOnHasResetValues := by
  refine ⟨rfl, ?_, rfl, by decide, rfl⟩
  have hlink : statusWord State.reset = statusWord State.reset &&& 0x0080#16 := (statusWord_and_link State.reset).symm
  rw [hlink, BitVec.and_assoc]
  exact BitVec.and_zero

/-- Settles O43: a reset gives the registers their values at power-on and keeps the link and the wire trace. -/
theorem resetSetsResetValues : Obligations.ResetSetsResetValues := by
  obtain ⟨-, -, hcrc, hzero, -⟩ := powerOnHasResetValues
  refine fun s => ⟨resetBlock s, rfl, statusWord_resetBlock s, hcrc, fun r hr => ?_, rfl, rfl, rfl⟩
  have hviews : r ∉ [Reg.status, .rxAddr, .rxFn, .rxSub, .rxDlen, .dataAt] := by
    revert r
    decide
  rw [sameRegs_resetBlock s r hviews, hzero r hr]

end Sys2Proof.Machine
end

section
/-! PROOFS. A whole transaction whose reply is already buffered (70_reset_and_hazards.md R250; 44_transaction.md R160,
R165, R171, R172). -/

namespace Sys2Proof.Machine

/-! ## XACT (R160, R165) -/

/-- A legal request has a reply length, of 7 to 262 bytes. -/
theorem replyLen_of_legal {s : State} {e : Nat} (h7 : 7 ≤ s.txLen.toNat) (h8 : s.txLen.toNat ≤ 8)
    (hreq : (readTx 3 s = 0x01#8 ∧ e = 7 + (readTx 5 s).toNat) ∨ (readTx 3 s = 0x02#8 ∧ e = 8) ∨
      (readTx 3 s = 0x03#8 ∧ e = s.txLen.toNat)) :
    ∃ x, replyLen s = some x ∧ x.toNat = e ∧ 7 ≤ e ∧ e ≤ 262 := by
  have hcount := (readTx 5 s).isLt
  obtain ⟨hsome, hrange⟩ : (replyLen s).map BitVec.toNat = some e ∧ 7 ≤ e ∧ e ≤ 262 := by
    rw [replyLen_toNat]
    rcases hreq with ⟨hf, rfl⟩ | ⟨hf, rfl⟩ | ⟨hf, rfl⟩ <;> rw [hf] <;> exact ⟨rfl, by omega⟩
  obtain ⟨x, hx, hxe⟩ := Option.map_eq_some_iff.mp hsome
  exact ⟨x, hx, hxe, hrange⟩

/-- While idle, with a legal request and the link open, XACT begins the transmit phase. -/
theorem exec_xact_begins {s : State} {e : BitVec 9} (hb : s.busy = false) (h7 : 7 ≤ s.txLen.toNat)
    (h8 : s.txLen.toNat ≤ 8) (hk : s.linkOpen = true) (he : replyLen s = some e) :
    exec .xact s = .next (beginTx e (clearOutcome s)) := by
  refine congrArg Host.Outcome.next ((whenIdle_idle hb).trans ?_)
  rw [he]
  exact startTransaction_begins h7 h8 hk

/-! ## The transmit phase (R171) -/

/-- The block once the rest of the request is sent, from `TxBuf[TX_IDX]` on. -/
def requestSent (s : State) : State :=
  { s with
    wireOut := s.wireOut ++ (prefixBytes s.txBuf s.txLen.toNat).drop s.txIdx.toNat
    txIdx := s.txLen
    phase := .rx }

section
variable (s : State)

@[simp] theorem requestSent_wireOut : (requestSent s).wireOut =
    s.wireOut ++ (prefixBytes s.txBuf s.txLen.toNat).drop s.txIdx.toNat := rfl
@[simp] theorem requestSent_rxExp : (requestSent s).rxExp = s.rxExp := rfl
@[simp] theorem requestSent_fifo : (requestSent s).fifo = s.fifo := rfl
@[simp] theorem requestSent_txBuf : (requestSent s).txBuf = s.txBuf := rfl
@[simp] theorem requestSent_rxBuf : (requestSent s).rxBuf = s.rxBuf := rfl
@[simp] theorem requestSent_crc : (requestSent s).crc = s.crc := rfl
@[simp] theorem requestSent_agenda : (requestSent s).agenda = s.agenda := rfl

end

theorem prefixBytes_drop {n : Nat} (v : Vector Byte n) {i L : Nat} (hi : i < L) (hL : L ≤ n) :
    (prefixBytes v L).drop i = readBuf v i :: (prefixBytes v L).drop (i + 1) := by
  have hlen : i < (prefixBytes v L).length := by rwa [prefixBytes_length v L hL]
  rw [List.drop_eq_getElem_cons hlen, ← prefixBytes_getD v L i hi, List.getD_eq_getElem _ _ hlen]

section
variable {s : State} (h8 : s.txLen.toNat ≤ 8)
include h8

theorem requestSent_sendByte (hidx : s.txIdx.toNat < s.txLen.toNat) : requestSent (sendByte s) = requestSent s := by
  have hnext : (s.txIdx + 1).toNat = s.txIdx.toNat + 1 := by bv_omega
  rw [requestSent, sendByte_wireOut, sendByte_txBuf, sendByte_txLen, sendByte_txIdx, hnext, requestSent,
    prefixBytes_drop s.txBuf hidx h8, List.append_assoc]
  rfl

/-- With every byte sent only the phase is left to change. -/
theorem requestSent_of_all (hall : s.txIdx = s.txLen) : requestSent s = { s with phase := .rx } := by
  rw [requestSent, hall, List.drop_eq_nil_of_le (Nat.le_of_eq (prefixBytes_length _ _ h8)), List.append_nil, ← hall]

theorem engineTx_last (hk : s.linkOpen = true) (hl : s.txIdx.toNat + 1 = s.txLen.toNat) :
    engineTx s = requestSent s := by
  have hlast : s.txIdx + 1 = s.txLen := by bv_omega
  rw [engineTx, if_pos hk, if_pos hlast, ← requestSent_sendByte h8 (by omega)]
  exact (requestSent_of_all (s := sendByte s) h8 hlast).symm

theorem engineTx_notLast (hk : s.linkOpen = true) (hl : s.txIdx.toNat + 1 < s.txLen.toNat) :
    engineTx s = sendByte s := by
  have hmore : s.txIdx + 1 ≠ s.txLen := by bv_omega
  rw [engineTx, if_pos hk, if_neg hmore]

end

/-- An engine step at the head of the agenda is the next event. -/
theorem run_engine {s t : State} {rest : List Event} (ha : s.agenda = .engine :: rest)
    (H : perform .engine { s with agenda := rest } = .next t) (k : Nat) : run (k + 1) s = run k t :=
  run_of_step ((step_agenda ha).trans H) k

/-- With the link open the engine sends the rest of the request in as many steps as bytes are left, and enters RX. -/
theorem run_transmit {n : Nat} {s : State} {rest : List Event} (hp : s.phase = .tx) (hk : s.linkOpen = true)
    (h8 : s.txLen.toNat ≤ 8) (hn : s.txIdx.toNat + (n + 1) = s.txLen.toNat)
    (ha : s.agenda = List.replicate (n + 1) .engine ++ rest) (k : Nat) :
    run (k + (n + 1)) s = run k (requestSent { s with agenda := rest }) := by
  induction n generalizing s with
  | zero =>
    rw [run_engine ha (perform_engine_tx (by exact hp)), engineTx_last (by exact h8) (by exact hk) (by exact hn)]
    rfl
  | succ n ih =>
    have hl : s.txIdx.toNat + 1 < s.txLen.toNat := by omega
    have hnext : (s.txIdx + 1).toNat + (n + 1) = s.txLen.toNat := by bv_omega
    have hsend := requestSent_sendByte (s := { s with agenda := rest }) h8 (Nat.lt_of_succ_lt hl)
    rw [← Nat.add_assoc k, run_engine ha (perform_engine_tx (by exact hp)),
      engineTx_notLast (by exact h8) (by exact hk) (by exact hl), ← hsend]
    exact ih (s := sendByte { s with agenda := List.replicate (n + 1) .engine ++ rest }) hp hk h8 hnext rfl

/-! ## The receive phase (R172) -/

/-- The block once the reply bytes `bs` that were still awaited stand in `RxBuf`, with `rest` left in the FIFO. -/
def replyStored (bs rest : List Byte) (s : State) : State :=
  { s with rxBuf := storeBytes s.rxBuf s.rxLen.toNat bs, rxLen := s.rxExp, fifo := rest }

section
variable (bs rest : List Byte) (s : State)

@[simp] theorem replyStored_wireOut : (replyStored bs rest s).wireOut = s.wireOut := rfl
@[simp] theorem replyStored_rxLen : (replyStored bs rest s).rxLen = s.rxExp := rfl
@[simp] theorem replyStored_fifo : (replyStored bs rest s).fifo = rest := rfl
@[simp] theorem replyStored_txBuf : (replyStored bs rest s).txBuf = s.txBuf := rfl
@[simp] theorem replyStored_rxBuf : (replyStored bs rest s).rxBuf = storeBytes s.rxBuf s.rxLen.toNat bs := rfl
@[simp] theorem replyStored_crc : (replyStored bs rest s).crc = s.crc := rfl
@[simp] theorem replyStored_agenda : (replyStored bs rest s).agenda = s.agenda := rfl

end

theorem engineRx_cons {s : State} {b : Byte} {rest : List Byte} (hf : s.fifo = b :: rest) :
    engineRx s =
      if s.rxLen + 1 = s.rxExp then finishReception (receiveByte b rest s) else receiveByte b rest s := by
  rw [engineRx, hf]

theorem perform_engine_rx_cons {s : State} {b : Byte} {rest : List Byte} (hp : s.phase = .rx)
    (hf : s.fifo = b :: rest) :
    perform .engine s = .next
      (if s.rxLen + 1 = s.rxExp then finishReception (receiveByte b rest s) else receiveByte b rest s) := by
  rw [perform_engine_rx hp (.inl (by simp [hf])), engineRx_cons hf]

/-- With the rest of the reply buffered the engine consumes it in as many steps as bytes are left, and ends the
reception. -/
theorem run_receive {b : Byte} {bs rest : List Byte} {s : State} {more : List Event} (hp : s.phase = .rx)
    (hf : s.fifo = b :: bs ++ rest) (hn : s.rxLen.toNat + (bs.length + 1) = s.rxExp.toNat)
    (ha : s.agenda = List.replicate (bs.length + 1) .engine ++ more) :
    run (bs.length + 1) s = .next (finishReception (replyStored (b :: bs) rest { s with agenda := more })) := by
  induction bs generalizing b s with
  | nil =>
    rw [List.length_nil] at hn ha ⊢
    have hlast : s.rxLen + 1 = s.rxExp := by bv_omega
    rw [run_engine ha (perform_engine_rx_cons (by exact hp) (by exact hf)), if_pos (by exact hlast), replyStored,
      ← hlast]
    rfl
  | cons c bs ih =>
    rw [List.length_cons] at hn ha ⊢
    have hmore : s.rxLen + 1 ≠ s.rxExp := by bv_omega
    have hlen : (s.rxLen + 1).toNat = s.rxLen.toNat + 1 := by bv_omega
    have hnext : (s.rxLen + 1).toNat + (bs.length + 1) = s.rxExp.toNat := by omega
    rw [run_engine ha (perform_engine_rx_cons (by exact hp) (by exact hf)), if_neg (by exact hmore)]
    refine (ih hp rfl hnext rfl (s := receiveByte b (c :: bs ++ rest)
      { s with agenda := List.replicate (bs.length + 1) .engine ++ more })).trans ?_
    simp only [replyStored, receiveByte_rxBuf, receiveByte_rxLen, hlen]
    rfl

/-! ## The outcome (R140, R172) -/

section
variable (s : State)

@[simp] theorem finishReception_wireOut : (finishReception s).wireOut = s.wireOut := rfl
@[simp] theorem finishReception_rxLen : (finishReception s).rxLen = s.rxLen := rfl
@[simp] theorem finishReception_fifo : (finishReception s).fifo = s.fifo := rfl
@[simp] theorem finishReception_txBuf : (finishReception s).txBuf = s.txBuf := rfl
@[simp] theorem finishReception_rxBuf : (finishReception s).rxBuf = s.rxBuf := rfl
@[simp] theorem finishReception_crc : (finishReception s).crc = s.crc := rfl
@[simp] theorem finishReception_agenda : (finishReception s).agenda = s.agenda := rfl

end

/-- What `decodeFrame` asks of a byte sequence whose length is in range (R140, R142). -/
theorem decodeFrame_ok_iff {bs : List Byte} (h7 : 7 ≤ bs.length) (h262 : bs.length ≤ 262) :
    (∃ f, decodeFrame bs = .ok f) ↔ bs.getD 0 0 = Config.start ∧
      le16 (bs.getD (bs.length - 2) 0) (bs.getD (bs.length - 1) 0) = crc16 (bs.take (bs.length - 2)) := by
  have hmin : ¬bs.length < Config.minLen := Nat.not_lt.mpr h7
  have hmax : ¬Config.rxBufSize < bs.length := Nat.not_lt.mpr h262
  rw [decodeFrame, if_neg hmin, if_neg hmax]
  split_ifs with hstart hcrc
  · exact ⟨fun ⟨_, h⟩ => (nomatch h), fun ⟨h, _⟩ => absurd h hstart⟩
  · exact ⟨fun ⟨_, h⟩ => (nomatch h), fun ⟨_, h⟩ => absurd h hcrc⟩
  · exact ⟨fun _ => ⟨not_not.mp hstart, not_not.mp hcrc⟩, fun _ => ⟨_, rfl⟩⟩

/-- `Check` accepts a byte sequence in `RxBuf` exactly when the sequence is a frame. -/
theorem check_ok_iff_decodes {bs : List Byte} {s : State} (hbuf : prefixBytes s.rxBuf bs.length = bs)
    (h7 : 7 ≤ bs.length) (h262 : bs.length ≤ 262) :
    (check bs.length s).ok = true ↔ ∃ f, decodeFrame bs = .ok f := by
  have hread {i : Nat} (hi : i < bs.length) : readRx i s = bs.getD i 0 := readBuf_of_prefixBytes hbuf hi
  have hreceived : (check bs.length s).received = le16 (bs.getD (bs.length - 2) 0) (bs.getD (bs.length - 1) 0) :=
    le16_eq_iff.mpr ⟨hread (by omega), hread (by omega)⟩
  have hcomputed : (check bs.length s).computed = crc16 (bs.take (bs.length - 2)) :=
    congrArg crc16 ((prefixBytes_take s.rxBuf (Nat.sub_le _ 2)).symm.trans (congrArg (List.take _) hbuf))
  rw [check_ok_iff, decodeFrame_ok_iff h7 h262, hread (by omega), hreceived, hcomputed]
  rfl

/-- A reply that is buffered whole ends up in `RxBuf`, and the outcome says whether it is a frame. -/
theorem finishReception_replyStored {reply rest : List Byte} {s : State} (h0 : s.rxLen = 0)
    (hlen : reply.length = s.rxExp.toNat) (h7 : 7 ≤ reply.length) (h262 : reply.length ≤ 262) :
    rxBytes reply.length (finishReception (replyStored reply rest s)) = reply ∧
    (∀ i, reply.length ≤ i → readRx i (finishReception (replyStored reply rest s)) = readRx i s) ∧
    ((finishReception (replyStored reply rest s)).valid = true ↔ ∃ f, decodeFrame reply = .ok f) := by
  have hstored : (finishReception (replyStored reply rest s)).rxBuf = storeBytes s.rxBuf 0 reply := by simp [h0]
  have hprefix : prefixBytes (finishReception (replyStored reply rest s)).rxBuf reply.length = reply := by
    rw [hstored]
    exact prefixBytes_storeBytes s.rxBuf h262
  refine ⟨(prefixBytes_eq_map _ _ h262).symm.trans hprefix, fun i hi => ?_, ?_⟩
  · rw [readRx, hstored]
    exact readBuf_storeBytes_after reply s.rxBuf 0 i (by omega)
  · rw [← check_ok_iff_decodes hprefix h7 h262, hlen]
    rfl

/-! ## The whole transaction (R250) -/

theorem sameTx_of_txBuf {s t : State} (h : t.txBuf = s.txBuf) : SameTx s t := fun i => congrArg (readBuf · i) h

section
variable {s : State} {reply rest : List Byte} {more : List Event} (hk : s.linkOpen = true) (h7 : 7 ≤ s.txLen.toNat)
  (h8 : s.txLen.toNat ≤ 8) (hf : s.fifo = reply ++ rest) (hpos : 0 < reply.length)
include hk h7 h8 hf hpos

/-- From the start of the transmit phase the engine sends the request and then consumes the reply. -/
theorem run_phases (hp : s.phase = .tx) (hidx : s.txIdx = 0) (hrx : s.rxLen = 0) (hlen : reply.length = s.rxExp.toNat)
    (ha : s.agenda = List.replicate (s.txLen.toNat + reply.length) .engine ++ more) :
    run (reply.length + s.txLen.toNat) s =
      .next (finishReception (replyStored reply rest (requestSent { s with agenda := more }))) := by
  obtain ⟨b, bs, rfl⟩ := List.exists_cons_of_length_pos hpos
  obtain ⟨n, hn⟩ : ∃ n, s.txLen.toNat = n + 1 := ⟨s.txLen.toNat - 1, by omega⟩
  rw [List.replicate_add, List.append_assoc, hn] at ha
  have hsend : s.txIdx.toNat + (n + 1) = s.txLen.toNat := by
    rw [hidx, hn]
    exact Nat.zero_add _
  have hreceive : s.rxLen.toNat + (bs.length + 1) = s.rxExp.toNat := by
    rw [hrx, ← hlen]
    exact Nat.zero_add _
  rw [hn, run_transmit hp hk h8 hsend ha]
  exact run_receive rfl hf hreceive rfl
    (s := requestSent { s with agenda := List.replicate (bs.length + 1) .engine ++ more })

/-- XACT, then the two phases. -/
theorem run_transaction {h : Nat} (hh : h < Config.nHosts) (hb : s.busy = false) {x : BitVec 9}
    (hx : replyLen s = some x) (hlen : reply.length = x.toNat)
    (ha : s.agenda = .host h (.writeReg 0 0x0005) ::
      (List.replicate (s.txLen.toNat + reply.length) .engine ++ more)) :
    run (1 + s.txLen.toNat + reply.length) s = .next (finishReception (replyStored reply rest
      (requestSent (beginTx x (clearOutcome { s with agenda := more }))))) := by
  have hxact := (perform_encoded hh (i := .xact) rfl rfl _).trans
    (exec_xact_begins (s := { s with agenda := List.replicate (s.txLen.toNat + reply.length) .engine ++ more })
      hb h7 h8 hk hx)
  have hsteps : 1 + s.txLen.toNat + reply.length = reply.length + s.txLen.toNat + 1 := by omega
  rw [hsteps, run_access ha hxact]
  exact run_phases (s := beginTx x (clearOutcome { s with agenda := _ })) hk h7 h8 hf hpos rfl rfl rfl hlen rfl

end

/-- Settles O30: the run of the transaction, and the outcome of its reply. -/
theorem transactionRunsToResult : Obligations.TransactionRunsToResult := by
  intro s h e reply rest more hh hb htx hk hreq hf hlen ha
  have h7 : 7 ≤ s.txLen.toNat := by rcases htx with hl | hl <;> rw [hl] <;> decide
  have h8 : s.txLen.toNat ≤ 8 := by rcases htx with hl | hl <;> rw [hl] <;> decide
  obtain ⟨x, hx, hxe, he7, he262⟩ := replyLen_of_legal h7 h8 hreq
  subst hlen
  obtain ⟨hreply, hafter, hvalid⟩ := finishReception_replyStored (rest := rest)
    (s := requestSent (beginTx x (clearOutcome { s with agenda := more }))) rfl hxe.symm he7 he262
  have hrun := run_transaction hk h7 h8 hf (by omega) hh hb hx hxe.symm ha
  exact ⟨_, hrun, by simp, hreply, hafter, by simpa using hxe, by simp, rfl, rfl, hvalid, rfl,
    sameTx_of_txBuf (by simp), by simp, by simp⟩

end Sys2Proof.Machine
end
